-- ==== Sys2Proof/Word.lean ====
section
/-! DEFINITION. The word types of the CGD. -/

namespace Sys2Proof

/-- A byte of the input buffer, and an 8-bit header (00_scope.md rule R7). -/
abbrev Byte := BitVec 8

/-- A 16-bit two's-complement accumulator component (10_state.md rules R25, R26), and an s1.14 integer of the normal
ROM (42_normal.md rule R157). -/
abbrev Word16 := BitVec 16

/-- The 32-bit window of the bit-field extractor (10_state.md rule R21). -/
abbrev Window := BitVec 32

/-- An IEEE 754 binary32 value as its bit pattern (00_scope.md rule R11): sign, 8 exponent bits, 23 fraction bits. -/
abbrev F32 := BitVec 32

end Sys2Proof
end

