-- ==== Sys2Proof/Config.lean ====
section
/-! DEFINITION. What an implementation of the CGD fixes: the parameters of 00_scope.md rule R6 as plain data, and the
free value of an NQT entry that does not exist. The parameters' defaults stand in Machine/Rom.lean; the free values
after an error stand in Machine/State.lean, whose type they have. -/

namespace Sys2Proof

/-- The parameter `UNWRITTEN_READ` (00_scope.md rule R6): whether a register that nothing has written holds no value,
so that reading it is an error, or holds zero. -/
inductive UnwrittenRead where
  | fault
  | zero
deriving DecidableEq, Repr, Inhabited

/-- One entry of the normal ROM: three integers k, each standing for k / 16384 (10_state.md rule R34), in s1.14. -/
structure RomEntry where
  kx : Word16
  ky : Word16
  kz : Word16
deriving DecidableEq, Repr, Inhabited

/-- One code of `SPECIAL_NORMALS`: a vector and the octant word whose bits then flip its signs (42_normal.md rule
R156). -/
structure SpecialNormal where
  x : F32
  y : F32
  z : F32
  o : BitVec 3
deriving DecidableEq, Repr, Inhabited

/-- The named parameters (00_scope.md rule R6). Row v of `nqt` holds the entries for u = 0 .. 64-v; `special` is
indexed by `8 * (sextant - 6) + octant`. -/
structure Params where
  unwrittenRead : UnwrittenRead
  supportedMajor : Nat
  supportedMinor : Nat
  nqt : List (List RomEntry)
  special : Vector SpecialNormal 16
deriving DecidableEq, Repr, Inhabited

/-- FREE VALUE (log entry 14). What a read of the normal ROM outside its triangle would give: the spec says such an
entry does not exist and is never read (42_normal.md rule R159), so nothing constrains it. -/
opaque Config.absentRomEntry : Int → Int → RomEntry

end Sys2Proof
end

