-- ==== Sys2Proof/Syntax.lean ====
section
/-! DEFINITION. The commands, one constructor per row of spec/opcode_table.json, in the table's order. A command is
named by its header (30_encoding.md rule R70); its body is read from the stream while it executes, by widths that
only the machine's state fixes (rule R90), so the body is no operand here. -/

namespace Sys2Proof

/-- A command as its header gives it (30_encoding.md rule R72). `h6` is the header's low six bits: the tag and the
leading data bits (rule R73). -/
inductive Instr where
  /-- NRM, header `11 h6`: set normal (42_normal.md rule R140). -/
  | nrm (h6 : BitVec 6)
  /-- COL, header `10 h6`: set color (43_color.md rule R170). -/
  | col (h6 : BitVec 6)
  /-- VTX, header `01 h6`: vertex (41_vertex.md rule R120). -/
  | vtx (h6 : BitVec 6)
  /-- MBR, header `001 k r1`: mesh buffer reference (44_mesh_reference.md rule R190). -/
  | mbr (k : BitVec 4) (r1 : Bool)
  /-- SST, header `00011 x bn`: set state; `x` is ignored (45_dispatch_control.md rule R218). -/
  | sst (x : BitVec 2) (bn : Bool)
  /-- STB, header `00010 s a6`: set table (40_set_table.md rule R100). -/
  | stb (s : BitVec 2) (a6 : Bool)
  /-- EOS, header 0x00: end of stream (45_dispatch_control.md rule R219). -/
  | eos
  /-- VNOP, header 0x01: variable-length no-op (rule R220). -/
  | vnop
  /-- SKIP8, header 0x07: fixed 8-bit skip (rule R221). -/
  | skip8
  /-- PASS, header 0x08: pass-through (rule R222). -/
  | pass
  /-- NRM_SUB, the 6-bit subheader of a bundled normal (30_encoding.md rule R88). `mbp` is no bit of it: it is the
  push bit of the vertex that carries it (45_dispatch_control.md rule R213; log entry 13). -/
  | nrmSub (h6 : BitVec 6) (mbp : Bool)
  /-- COL_SUB, the 6-bit subheader of a bundled color; `mbp` as for NRM_SUB. -/
  | colSub (h6 : BitVec 6) (mbp : Bool)
  /-- RESERVED, headers 0x02 to 0x06 and 0x09 to 0x0F (30_encoding.md rule R84). -/
  | reserved02
  | reserved03
  | reserved04
  | reserved05
  | reserved06
  | reserved09
  | reserved0A
  | reserved0B
  | reserved0C
  | reserved0D
  | reserved0E
  | reserved0F
  /-- STB_RESERVED_SELECT, headers 0x16 and 0x17: table select 3 (40_set_table.md rule R102). -/
  | stbReservedSelect (a6 : Bool)
deriving DecidableEq, Repr, Inhabited

end Sys2Proof
end

