-- ==== Sys2Proof/WellFormed.lean ====
section
/-! DEFINITION. Which terms of `Instr` are commands the header encoding has. Every field but one has exactly the width
of its bits, so one check is left. -/

namespace Sys2Proof

/-- A set-table command names the position, color or normal table: select 3 is the encoding of
STB_RESERVED_SELECT (40_set_table.md rules R101, R102). -/
def Instr.wellFormed : Instr → Bool
  | .stb s _ => decide (s ≠ 3#2)
  | .nrm _ | .col _ | .vtx _ | .mbr _ _ | .sst _ _ => true
  | .eos | .vnop | .skip8 | .pass => true
  | .nrmSub _ _ | .colSub _ _ => true
  | .reserved02 | .reserved03 | .reserved04 | .reserved05 | .reserved06 | .reserved09 => true
  | .reserved0A | .reserved0B | .reserved0C | .reserved0D | .reserved0E | .reserved0F => true
  | .stbReservedSelect _ => true

end Sys2Proof
end

