-- ==== Sys2Proof/Decode.lean ====
section
/-! DEFINITION. The header decoder, total on every 8-bit header and on every subheader, and after it the encoder: the
header of a command, and the bits of its body. Both are written from 30_encoding.md. A header that names no command
decodes to the RESERVED constructor of its own value, whose meaning raises the error by name (rule R84). -/

namespace Sys2Proof

/-- The RESERVED row of a header value that no class takes (30_encoding.md rule R84). -/
def reservedOf (h : Byte) : Instr :=
  if h = 0x02#8 then .reserved02
  else if h = 0x03#8 then .reserved03
  else if h = 0x04#8 then .reserved04
  else if h = 0x05#8 then .reserved05
  else if h = 0x06#8 then .reserved06
  else if h = 0x09#8 then .reserved09
  else if h = 0x0A#8 then .reserved0A
  else if h = 0x0B#8 then .reserved0B
  else if h = 0x0C#8 then .reserved0C
  else if h = 0x0D#8 then .reserved0D
  else if h = 0x0E#8 then .reserved0E
  else .reserved0F

/-- The command of an 8-bit header: the class tests of 30_encoding.md rule R72 in its order. -/
def decodeHeader (h : Byte) : Instr :=
  if h.extractLsb' 6 2 = 3#2 then .nrm (h.extractLsb' 0 6)
  else if h.extractLsb' 6 2 = 2#2 then .col (h.extractLsb' 0 6)
  else if h.extractLsb' 6 2 = 1#2 then .vtx (h.extractLsb' 0 6)
  else if h.extractLsb' 5 3 = 1#3 then .mbr (h.extractLsb' 1 4) (h.getLsbD 0)
  else if h.extractLsb' 3 5 = 3#5 then .sst (h.extractLsb' 1 2) (h.getLsbD 0)
  else if h.extractLsb' 3 5 = 2#5 then
    if h.extractLsb' 1 2 = 3#2 then .stbReservedSelect (h.getLsbD 0)
    else .stb (h.extractLsb' 1 2) (h.getLsbD 0)
  else if h = 0x00#8 then .eos
  else if h = 0x01#8 then .vnop
  else if h = 0x08#8 then .pass
  else if h = 0x07#8 then .skip8
  else reservedOf h

/-- The bundled normal of a 6-bit subheader, in a vertex whose push bit is `mbp` (30_encoding.md rule R88). -/
def decodeNormalSub (sub : BitVec 6) (mbp : Bool) : Instr := .nrmSub sub mbp

/-- The bundled color of a 6-bit subheader, in a vertex whose push bit is `mbp` (30_encoding.md rule R88). -/
def decodeColorSub (sub : BitVec 6) (mbp : Bool) : Instr := .colSub sub mbp

/-- The command of the bits `w` of a row of spec/opcode_table.json. The header is the first byte, and it alone is what
the decoder reads; a row gives at least that byte. -/
def decodeTableWord (nbits w : Nat) : Option Instr :=
  if nbits = 0 then none else some (decodeHeader (BitVec.ofNat 8 w))

/-! The encoder. -/

/-- How many bits the header of a command has: 6 for a subheader (30_encoding.md rule R88), 8 otherwise. -/
def headerWidth : Instr → Nat
  | .nrmSub _ _ | .colSub _ _ => 6
  | .nrm _ | .col _ | .vtx _ | .mbr _ _ | .sst _ _ | .stb _ _ => 8
  | .eos | .vnop | .skip8 | .pass => 8
  | .reserved02 | .reserved03 | .reserved04 | .reserved05 | .reserved06 | .reserved09 => 8
  | .reserved0A | .reserved0B | .reserved0C | .reserved0D | .reserved0E | .reserved0F => 8
  | .stbReservedSelect _ => 8

/-- The header of a command (30_encoding.md rules R72, R80 to R89); a subheader is zero-extended to 8 bits, as NXT
holds it (10_state.md rule R22). -/
def encode : Instr → Byte
  | .nrm h6 => 3#2 ++ h6
  | .col h6 => 2#2 ++ h6
  | .vtx h6 => 1#2 ++ h6
  | .mbr k r1 => 1#3 ++ k ++ BitVec.ofBool r1
  | .sst x bn => 3#5 ++ x ++ BitVec.ofBool bn
  | .stb s a6 => 2#5 ++ s ++ BitVec.ofBool a6
  | .eos => 0x00#8
  | .vnop => 0x01#8
  | .skip8 => 0x07#8
  | .pass => 0x08#8
  | .nrmSub h6 _ => 0#2 ++ h6
  | .colSub h6 _ => 0#2 ++ h6
  | .reserved02 => 0x02#8
  | .reserved03 => 0x03#8
  | .reserved04 => 0x04#8
  | .reserved05 => 0x05#8
  | .reserved06 => 0x06#8
  | .reserved09 => 0x09#8
  | .reserved0A => 0x0A#8
  | .reserved0B => 0x0B#8
  | .reserved0C => 0x0C#8
  | .reserved0D => 0x0D#8
  | .reserved0E => 0x0E#8
  | .reserved0F => 0x0F#8
  | .stbReservedSelect a6 => 2#5 ++ 3#2 ++ BitVec.ofBool a6

/-- The `w` low bits of `v` in stream order, most significant first (00_scope.md rule R7). -/
def bitsOf (w v : Nat) : List Bool :=
  (List.range w).map fun i => v.testBit (w - 1 - i)

/-- The number whose bits in stream order are `bs`. -/
def ofBits (bs : List Bool) : Nat :=
  bs.foldl (fun v b => 2 * v + b.toNat) 0

/-- The tag and then the fields, each a width and a value, as one bit string (30_encoding.md rule R74). -/
def packBits (t tag : Nat) (fields : List (Nat × Nat)) : List Bool :=
  bitsOf t tag ++ fields.flatMap fun f => bitsOf f.1 f.2

/-- The low six header bits that begin the bit string `bs`; header bits it does not reach are 0. -/
def headerBits (bs : List Bool) : BitVec 6 :=
  BitVec.ofNat 6 (ofBits (bs.take 6) * 2 ^ (6 - bs.length))

/-- A command with table-driven fields: its low six header bits, and the body bits after them. -/
structure Packed where
  h6 : BitVec 6
  body : List Bool
deriving DecidableEq, Repr, Inhabited

/-- A normal or a color with the fields `fields` (30_encoding.md rules R82, R83): the header takes the first bits and
the stream continues them. -/
def encodeFields (t tag : Nat) (fields : List (Nat × Nat)) : Packed :=
  let bs := packBits t tag fields
  ⟨headerBits bs, bs.drop 6⟩

/-- A vertex with the coded position fields `x`, `y`, `z` of `L` bits and the 3-bit quantity `rm` (30_encoding.md rule
R80): `rm` follows the fields in the header where header bits are left, else it opens the body. -/
def encodeVertex (t tag L x y z rm : Nat) : Packed :=
  let xyz := packBits t tag [(L, x), (L, y), (L, z)]
  if t + 3 * L < 6 then
    let bs := xyz ++ bitsOf 3 rm
    ⟨headerBits bs, bs.drop 6⟩
  else ⟨headerBits xyz, bitsOf 3 rm ++ xyz.drop 6⟩

/-- The body of STB: `{a[5:0] : 6, dl : 4, abs : 1, rs : 4}` (30_encoding.md rule R87). -/
def encodeStbBody (a : BitVec 6) (dl : BitVec 4) (absolute : Bool) (rs : BitVec 4) : List Bool :=
  bitsOf 6 a.toNat ++ bitsOf 4 dl.toNat ++ [absolute] ++ bitsOf 4 rs.toNat

/-- The body of SST: `{BC, BA, z}` (30_encoding.md rule R86). -/
def encodeSstBody (bc ba z : Bool) : List Bool := [bc, ba, z]

/-- The body of MBR: `{r0}` (30_encoding.md rule R85). -/
def encodeMbrBody (r0 : Bool) : List Bool := [r0]

/-- The body of VNOP: the 5-bit count of the skipped bits, then those bits (30_encoding.md rule R89). -/
def encodeVnopBody (skipped : List Bool) : List Bool := bitsOf 5 skipped.length ++ skipped

/-- The body of SKIP8 (30_encoding.md rule R89). -/
def encodeSkip8Body (v : Byte) : List Bool := bitsOf 8 v.toNat

/-- The body of PASS: 24 bits, then 32 bits (30_encoding.md rule R89). -/
def encodePassBody (a : BitVec 24) (b : BitVec 32) : List Bool :=
  bitsOf 24 a.toNat ++ bitsOf 32 b.toNat

end Sys2Proof
end

