-- ==== Sys2Proof/Machine/Memory.lean ====
section
/-! DEFINITION. The input buffer BUF (20_memory.md rules R50 to R52) as a list of address and byte pairs in one
canonical form: addresses strictly rising, no byte listed that is 0. A byte that is not listed is 0 (log entry 10). -/

namespace Sys2Proof.Machine

/-- The contents of BUF. -/
abbrev Memory := List Host.Cell

/-- What a byte of BUF that is not listed reads as (log entry 10). -/
def unlistedByte : Byte := 0#8

/-- The byte at address `a` (20_memory.md rule R52). That `a` exists is the caller's check. -/
def Memory.read : Memory → Nat → Byte
  | [], _ => unlistedByte
  | (k, v) :: rest, a => if k = a then v else Memory.read rest a

/-- `m` with the byte `b` at address `a`, in canonical form again. Only the host writes (20_memory.md rule R50). -/
def Memory.write : Memory → Nat → Byte → Memory
  | [], a, b => if b = unlistedByte then [] else [(a, b)]
  | (k, v) :: rest, a, b =>
    if a < k then if b = unlistedByte then (k, v) :: rest else (a, b) :: (k, v) :: rest
    else if a = k then if b = unlistedByte then rest else (a, b) :: rest
    else (k, v) :: Memory.write rest a b

/-- The byte array `bytes` from address `a` on, in canonical form. -/
def Memory.ofBytesFrom : Nat → List Byte → Memory
  | _, [] => []
  | a, b :: bs =>
    if b = unlistedByte then Memory.ofBytesFrom (a + 1) bs else (a, b) :: Memory.ofBytesFrom (a + 1) bs

/-- The byte array the host supplies (20_memory.md rule R50). -/
def Memory.ofBytes (bytes : List Byte) : Memory := Memory.ofBytesFrom 0 bytes

/-- Canonical from address `lo` up to `size`: addresses rise strictly, lie in range, and no byte listed is 0. -/
def Memory.wfFrom (size : Nat) : Nat → Memory → Bool
  | _, [] => true
  | lo, (k, v) :: rest =>
    decide (lo ≤ k) && decide (k < size) && decide (v ≠ unlistedByte) && Memory.wfFrom size (k + 1) rest

/-- The canonical form of a buffer of `size` bytes. -/
def Memory.wf (size : Nat) (m : Memory) : Bool := Memory.wfFrom size 0 m

end Sys2Proof.Machine
end

