-- ==== Sys2Proof/Machine/Rom.lean ====
section
/-! DEFINITION. The default contents of the parameters NQT_TABLE and SPECIAL_NORMALS (42_normal.md rules R156 to R158). -/

namespace Sys2Proof.Machine

/-- One row of the table of 42_normal.md rule R158: `ky`, then the pairs `(kx, kz)` for u = 0, 1, ... -/
abbrev RomRow := Nat × List (Nat × Nat)

/-- Rows v = 0 to 4 of 42_normal.md rule R158. -/
def romRows00 : List RomRow :=
  [(0, [
    (11585,11585), (11815,11350), (12033,11118), (12240,10890), (12438,10664), (12625,10441), (12804,10221), (12975,10003), 
    (13138,9788), (13294,9576), (13443,9365), (13585,9157), (13721,8952), (13852,8748), (13977,8547), (14097,8347), 
    (14212,8150), (14323,7954), (14429,7760), (14530,7568), (14628,7378), (14722,7189), (14812,7002), (14898,6817), 
    (14981,6632), (15060,6450), (15137,6268), (15210,6088), (15280,5910), (15348,5732), (15412,5556), (15474,5381), 
    (15534,5207), (15591,5034), (15645,4862), (15697,4691), (15747,4521), (15795,4352), (15840,4184), (15883,4016), 
    (15925,3850), (15964,3684), (16001,3519), (16036,3354), (16070,3190), (16101,3027), (16131,2864), (16159,2702), 
    (16185,2541), (16210,2379), (16232,2219), (16254,2059), (16273,1899), (16291,1739), (16307,1580), (16322,1421), 
    (16335,1262), (16346,1104), (16356,946), (16365,788), (16371,630), (16377,472), (16380,315), (16383,157), (16384,0)]),
   (157, [
    (11584,11584), (11814,11349), (12033,11118), (12240,10889), (12437,10663), (12625,10441), (12804,10220), (12974,10003), 
    (13137,9788), (13293,9575), (13442,9365), (13584,9157), (13721,8951), (13851,8748), (13977,8546), (14097,8347), 
    (14212,8149), (14322,7954), (14428,7760), (14530,7568), (14627,7378), (14721,7189), (14811,7002), (14897,6816), 
    (14980,6632), (15060,6449), (15136,6268), (15209,6088), (15280,5910), (15347,5732), (15412,5556), (15474,5381), 
    (15533,5207), (15590,5034), (15645,4862), (15697,4691), (15746,4521), (15794,4352), (15839,4184), (15883,4016), 
    (15924,3849), (15963,3684), (16000,3518), (16036,3354), (16069,3190), (16101,3027), (16130,2864), (16158,2702), 
    (16184,2540), (16209,2379), (16232,2219), (16253,2058), (16272,1899), (16290,1739), (16306,1580), (16321,1421), 
    (16334,1262), (16345,1104), (16355,946), (16364,788), (16371,630), (16376,472), (16380,315), (16382,157)]),
   (315, [
    (11583,11583), (11813,11348), (12031,11116), (12238,10888), (12435,10662), (12623,10439), (12802,10219), (12973,10001), 
    (13135,9786), (13291,9574), (13440,9364), (13583,9156), (13719,8950), (13850,8747), (13975,8545), (14095,8346), 
    (14210,8148), (14320,7953), (14426,7759), (14528,7567), (14625,7377), (14719,7188), (14809,7001), (14895,6815), 
    (14978,6631), (15058,6449), (15134,6267), (15207,6087), (15278,5909), (15345,5731), (15410,5555), (15472,5380), 
    (15531,5206), (15588,5033), (15642,4861), (15695,4690), (15744,4520), (15792,4351), (15837,4183), (15881,4016), 
    (15922,3849), (15961,3683), (15998,3518), (16033,3353), (16067,3190), (16098,3026), (16128,2864), (16156,2702), 
    (16182,2540), (16207,2379), (16229,2218), (16251,2058), (16270,1898), (16288,1739), (16304,1580), (16319,1421), 
    (16332,1262), (16343,1104), (16353,946), (16361,788), (16368,630), (16374,472), (16377,315)]),
   (472, [
    (11580,11580), (11810,11345), (12028,11114), (12235,10885), (12432,10660), (12620,10437), (12799,10217), (12970,9999), 
    (13132,9784), (13288,9572), (13437,9361), (13579,9154), (13716,8948), (13846,8745), (13972,8543), (14091,8344), 
    (14207,8146), (14317,7951), (14423,7757), (14524,7565), (14622,7375), (14716,7186), (14805,6999), (14892,6814), 
    (14975,6630), (15054,6447), (15130,6266), (15204,6086), (15274,5907), (15341,5730), (15406,5554), (15468,5379), 
    (15527,5205), (15584,5032), (15639,4860), (15691,4689), (15741,4519), (15788,4350), (15834,4182), (15877,4015), 
    (15918,3848), (15957,3682), (15994,3517), (16030,3353), (16063,3189), (16095,3026), (16124,2863), (16152,2701), 
    (16179,2540), (16203,2378), (16226,2218), (16247,2058), (16266,1898), (16284,1738), (16300,1579), (16315,1421), 
    (16328,1262), (16339,1104), (16349,946), (16358,788), (16365,630), (16370,472)]),
   (630, [
    (11576,11576), (11806,11342), (12024,11110), (12231,10882), (12428,10656), (12616,10433), (12795,10213), (12965,9996), 
    (13128,9781), (13284,9568), (13433,9358), (13575,9151), (13711,8945), (13842,8742), (13967,8540), (14087,8341), 
    (14202,8144), (14312,7948), (14418,7755), (14520,7563), (14617,7373), (14711,7184), (14801,6997), (14887,6812), 
    (14970,6628), (15049,6445), (15126,6264), (15199,6084), (15269,5905), (15336,5728), (15401,5552), (15463,5377), 
    (15522,5203), (15579,5030), (15634,4858), (15686,4688), (15736,4518), (15783,4349), (15828,4181), (15872,4013), 
    (15913,3847), (15952,3681), (15989,3516), (16025,3352), (16058,3188), (16089,3025), (16119,2862), (16147,2700), 
    (16173,2539), (16198,2378), (16220,2217), (16242,2057), (16261,1897), (16279,1738), (16295,1579), (16310,1420), 
    (16323,1262), (16334,1103), (16344,945), (16352,787), (16359,630)])]

/-- Rows v = 5 to 9 of 42_normal.md rule R158. -/
def romRows05 : List RomRow :=
  [(787, [
    (11571,11571), (11801,11337), (12019,11105), (12226,10877), (12423,10652), (12611,10429), (12789,10209), (12960,9992), 
    (13123,9777), (13278,9565), (13427,9355), (13569,9147), (13706,8941), (13836,8738), (13961,8537), (14081,8338), 
    (14196,8140), (14306,7945), (14412,7751), (14514,7560), (14611,7369), (14705,7181), (14794,6994), (14881,6809), 
    (14963,6625), (15043,6442), (15119,6261), (15192,6081), (15263,5903), (15330,5726), (15395,5550), (15457,5375), 
    (15516,5201), (15573,5028), (15627,4856), (15679,4686), (15729,4516), (15777,4347), (15822,4179), (15865,4012), 
    (15906,3845), (15945,3679), (15983,3514), (16018,3350), (16051,3187), (16083,3023), (16112,2861), (16140,2699), 
    (16167,2538), (16191,2377), (16214,2216), (16235,2056), (16254,1896), (16272,1737), (16288,1578), (16303,1419), 
    (16316,1261), (16327,1103), (16337,945), (16346,787)]),
   (944, [
    (11565,11565), (11795,11331), (12013,11100), (12220,10872), (12417,10646), (12604,10424), (12783,10204), (12953,9987), 
    (13116,9772), (13272,9560), (13420,9350), (13562,9142), (13699,8937), (13829,8734), (13954,8533), (14074,8333), 
    (14189,8136), (14299,7941), (14405,7747), (14506,7556), (14604,7366), (14697,7177), (14787,6991), (14873,6805), 
    (14956,6621), (15035,6439), (15112,6258), (15185,6078), (15255,5900), (15322,5723), (15387,5547), (15449,5372), 
    (15508,5198), (15565,5026), (15619,4854), (15671,4683), (15721,4514), (15769,4345), (15814,4177), (15857,4010), 
    (15898,3843), (15937,3678), (15974,3513), (16010,3348), (16043,3185), (16075,3022), (16104,2860), (16132,2698), 
    (16158,2536), (16183,2376), (16205,2215), (16227,2055), (16246,1896), (16264,1736), (16280,1577), (16295,1419), 
    (16308,1260), (16319,1102), (16329,944)]),
   (1102, [
    (11558,11558), (11788,11324), (12006,11093), (12213,10865), (12409,10640), (12597,10417), (12775,10198), (12946,9981), 
    (13108,9766), (13264,9554), (13412,9344), (13554,9137), (13690,8931), (13821,8728), (13946,8527), (14065,8328), 
    (14180,8131), (14290,7936), (14396,7743), (14498,7551), (14595,7361), (14688,7173), (14778,6986), (14864,6801), 
    (14947,6617), (15026,6435), (15102,6254), (15176,6075), (15246,5896), (15313,5719), (15378,5543), (15439,5369), 
    (15499,5195), (15556,5023), (15610,4851), (15662,4680), (15712,4511), (15759,4342), (15804,4174), (15848,4007), 
    (15889,3841), (15928,3675), (15965,3511), (16000,3346), (16033,3183), (16065,3020), (16095,2858), (16122,2696), 
    (16149,2535), (16173,2374), (16196,2214), (16217,2054), (16236,1894), (16254,1735), (16270,1576), (16285,1418), 
    (16298,1260), (16309,1102)]),
   (1259, [
    (11550,11550), (11780,11316), (11997,11085), (12204,10857), (12401,10632), (12588,10410), (12766,10191), (12937,9974), 
    (13099,9759), (13254,9547), (13403,9338), (13545,9130), (13681,8925), (13811,8722), (13936,8521), (14056,8323), 
    (14170,8126), (14280,7931), (14386,7737), (14487,7546), (14585,7356), (14678,7168), (14768,6981), (14854,6796), 
    (14936,6613), (15016,6431), (15092,6250), (15165,6070), (15235,5892), (15302,5715), (15367,5540), (15429,5365), 
    (15488,5192), (15545,5019), (15599,4848), (15651,4677), (15701,4508), (15748,4339), (15793,4171), (15837,4004), 
    (15878,3838), (15917,3673), (15954,3508), (15989,3344), (16022,3181), (16054,3018), (16083,2856), (16111,2694), 
    (16137,2533), (16162,2372), (16184,2212), (16206,2052), (16225,1893), (16243,1734), (16259,1575), (16273,1417), 
    (16286,1259)]),
   (1416, [
    (11541,11541), (11771,11307), (11988,11077), (12195,10849), (12391,10624), (12578,10402), (12756,10183), (12926,9966), 
    (13089,9752), (13244,9540), (13392,9330), (13534,9123), (13670,8918), (13800,8715), (13925,8515), (14045,8316), 
    (14159,8119), (14269,7924), (14375,7731), (14476,7540), (14573,7350), (14667,7162), (14756,6976), (14842,6791), 
    (14925,6608), (15004,6426), (15080,6245), (15153,6066), (15223,5888), (15290,5711), (15355,5535), (15417,5361), 
    (15476,5187), (15532,5015), (15587,4844), (15639,4674), (15688,4504), (15736,4336), (15781,4168), (15824,4001), 
    (15865,3835), (15904,3670), (15941,3505), (15976,3341), (16010,3178), (16041,3016), (16071,2854), (16099,2692), 
    (16125,2531), (16149,2371), (16172,2210), (16193,2051), (16212,1892), (16230,1733), (16246,1574), (16261,1416)])]

/-- Rows v = 10 to 14 of 42_normal.md rule R158. -/
def romRows10 : List RomRow :=
  [(1573, [
    (11531,11531), (11760,11298), (11977,11067), (12184,10839), (12380,10615), (12567,10393), (12745,10174), (12915,9957), 
    (13077,9743), (13232,9531), (13380,9322), (13522,9115), (13658,8910), (13788,8708), (13913,8507), (14032,8309), 
    (14147,8112), (14257,7917), (14362,7725), (14463,7533), (14560,7344), (14654,7156), (14743,6970), (14829,6785), 
    (14912,6602), (14991,6420), (15067,6240), (15140,6060), (15210,5882), (15277,5706), (15341,5530), (15403,5356), 
    (15462,5183), (15519,5011), (15573,4840), (15625,4669), (15674,4500), (15722,4332), (15767,4164), (15810,3998), 
    (15851,3832), (15890,3667), (15927,3502), (15962,3339), (15996,3175), (16027,3013), (16057,2851), (16084,2690), 
    (16110,2529), (16135,2368), (16157,2209), (16178,2049), (16198,1890), (16216,1731), (16232,1573)]),
   (1729, [
    (11520,11520), (11749,11287), (11966,11056), (12172,10829), (12368,10604), (12555,10383), (12733,10164), (12902,9947), 
    (13064,9733), (13219,9522), (13367,9313), (13509,9106), (13645,8902), (13775,8699), (13899,8499), (14019,8301), 
    (14133,8104), (14243,7910), (14348,7717), (14449,7526), (14546,7337), (14639,7149), (14729,6963), (14815,6778), 
    (14897,6595), (14976,6414), (15052,6233), (15125,6054), (15195,5877), (15262,5700), (15326,5525), (15388,5351), 
    (15447,5178), (15504,5006), (15558,4835), (15610,4665), (15659,4496), (15707,4328), (15752,4160), (15795,3994), 
    (15836,3828), (15875,3663), (15912,3499), (15947,3335), (15980,3172), (16011,3010), (16041,2848), (16069,2687), 
    (16095,2526), (16119,2366), (16142,2206), (16163,2047), (16182,1888), (16200,1729)]),
   (1886, [
    (11508,11508), (11736,11274), (11953,11044), (12159,10817), (12355,10593), (12541,10372), (12719,10153), (12889,9937), 
    (13051,9723), (13205,9512), (13353,9303), (13495,9097), (13630,8892), (13760,8690), (13884,8490), (14004,8292), 
    (14118,8096), (14228,7901), (14333,7709), (14434,7518), (14531,7329), (14624,7141), (14713,6956), (14799,6771), 
    (14881,6588), (14960,6407), (15036,6227), (15109,6048), (15179,5870), (15246,5694), (15310,5519), (15372,5345), 
    (15431,5172), (15487,5001), (15541,4830), (15593,4660), (15642,4491), (15690,4323), (15735,4156), (15778,3990), 
    (15819,3824), (15858,3659), (15895,3495), (15930,3332), (15963,3169), (15994,3007), (16024,2845), (16052,2684), 
    (16078,2524), (16102,2364), (16125,2204), (16145,2045), (16165,1886)]),
   (2042, [
    (11494,11494), (11723,11261), (11939,11032), (12145,10805), (12340,10581), (12527,10360), (12704,10141), (12874,9925), 
    (13035,9712), (13190,9501), (13338,9292), (13479,9086), (13614,8882), (13744,8680), (13868,8480), (13987,8282), 
    (14102,8086), (14211,7892), (14316,7700), (14417,7509), (14514,7320), (14607,7133), (14696,6948), (14782,6763), 
    (14864,6581), (14943,6399), (15019,6220), (15091,6041), (15161,5864), (15228,5688), (15292,5513), (15354,5339), 
    (15413,5166), (15469,4995), (15523,4824), (15575,4654), (15624,4486), (15672,4318), (15717,4151), (15760,3985), 
    (15800,3820), (15839,3655), (15876,3491), (15911,3328), (15944,3165), (15976,3003), (16005,2842), (16033,2681), 
    (16059,2521), (16083,2361), (16106,2201), (16127,2042)]),
   (2199, [
    (11480,11480), (11708,11247), (11924,11018), (12130,10791), (12325,10567), (12511,10347), (12688,10128), (12857,9913), 
    (13019,9700), (13173,9489), (13321,9281), (13462,9075), (13597,8871), (13727,8669), (13851,8469), (13970,8272), 
    (14084,8076), (14193,7882), (14298,7690), (14399,7500), (14496,7311), (14588,7124), (14678,6939), (14763,6755), 
    (14845,6572), (14924,6391), (15000,6212), (15072,6033), (15142,5856), (15209,5680), (15273,5506), (15334,5332), 
    (15393,5160), (15450,4988), (15504,4818), (15555,4649), (15605,4480), (15652,4313), (15697,4146), (15740,3980), 
    (15781,3815), (15819,3650), (15856,3487), (15891,3324), (15924,3161), (15956,3000), (15985,2838), (16013,2678), 
    (16039,2518), (16063,2358), (16086,2199)])]

/-- Rows v = 15 to 19 of 42_normal.md rule R158. -/
def romRows15 : List RomRow :=
  [(2355, [
    (11464,11464), (11692,11232), (11908,11003), (12113,10777), (12308,10553), (12494,10333), (12671,10115), (12840,9899), 
    (13001,9687), (13156,9476), (13303,9268), (13444,9062), (13579,8859), (13708,8657), (13832,8458), (13951,8261), 
    (14065,8065), (14174,7872), (14279,7680), (14380,7490), (14476,7301), (14569,7115), (14658,6929), (14743,6746), 
    (14825,6564), (14904,6383), (14979,6203), (15052,6025), (15122,5848), (15188,5673), (15252,5498), (15314,5325), 
    (15373,5153), (15429,4982), (15483,4812), (15534,4642), (15584,4474), (15631,4307), (15676,4140), (15719,3975), 
    (15759,3810), (15798,3645), (15835,3482), (15870,3319), (15903,3157), (15934,2996), (15964,2835), (15991,2674), 
    (16017,2514), (16041,2355)]),
   (2511, [
    (11448,11448), (11675,11216), (11891,10987), (12096,10761), (12291,10538), (12476,10318), (12653,10100), (12822,9885), 
    (12983,9673), (13137,9462), (13284,9255), (13425,9049), (13559,8846), (13688,8645), (13812,8446), (13931,8249), 
    (14045,8054), (14154,7860), (14258,7669), (14359,7479), (14455,7291), (14548,7104), (14637,6919), (14722,6736), 
    (14804,6554), (14882,6374), (14958,6194), (15030,6017), (15100,5840), (15166,5665), (15230,5490), (15292,5317), 
    (15350,5145), (15407,4975), (15460,4805), (15512,4636), (15561,4468), (15608,4301), (15653,4134), (15696,3969), 
    (15737,3804), (15775,3640), (15812,3477), (15847,3314), (15880,3153), (15911,2991), (15941,2830), (15968,2670), 
    (15994,2511)]),
   (2666, [
    (11430,11430), (11657,11199), (11873,10970), (12077,10744), (12272,10522), (12457,10302), (12633,10085), (12802,9870), 
    (12963,9658), (13116,9448), (13263,9240), (13404,9035), (13538,8832), (13667,8632), (13791,8433), (13909,8236), 
    (14023,8041), (14132,7848), (14236,7657), (14337,7467), (14433,7280), (14525,7093), (14614,6909), (14699,6726), 
    (14781,6544), (14860,6364), (14935,6185), (15007,6007), (15077,5831), (15143,5656), (15207,5482), (15268,5309), 
    (15327,5138), (15383,4967), (15437,4797), (15488,4629), (15537,4461), (15584,4294), (15629,4128), (15672,3963), 
    (15712,3798), (15751,3635), (15788,3472), (15823,3309), (15856,3148), (15887,2987), (15916,2826), (15944,2666)]),
   (2821, [
    (11412,11412), (11638,11180), (11853,10952), (12057,10727), (12252,10505), (12437,10285), (12613,10068), (12781,9854), 
    (12942,9642), (13095,9432), (13242,9225), (13382,9021), (13516,8818), (13645,8617), (13768,8419), (13887,8223), 
    (14000,8028), (14109,7835), (14213,7644), (14313,7455), (14409,7268), (14502,7082), (14590,6897), (14675,6715), 
    (14757,6533), (14835,6353), (14910,6175), (14983,5997), (15052,5821), (15118,5647), (15182,5473), (15243,5301), 
    (15302,5129), (15358,4959), (15411,4789), (15463,4621), (15512,4453), (15559,4287), (15603,4121), (15646,3956), 
    (15687,3792), (15725,3629), (15762,3466), (15797,3304), (15830,3143), (15861,2982), (15890,2821)]),
   (2977, [
    (11392,11392), (11618,11161), (11833,10933), (12037,10708), (12230,10486), (12415,10267), (12591,10051), (12759,9837), 
    (12919,9625), (13072,9416), (13219,9209), (13359,9005), (13493,8803), (13622,8603), (13745,8404), (13863,8208), 
    (13976,8014), (14084,7822), (14189,7631), (14289,7442), (14384,7255), (14477,7070), (14565,6886), (14650,6703), 
    (14731,6522), (14810,6342), (14885,6164), (14957,5987), (15026,5811), (15092,5637), (15156,5464), (15217,5291), 
    (15275,5120), (15331,4950), (15385,4781), (15436,4613), (15485,4446), (15532,4279), (15577,4114), (15619,3949), 
    (15660,3786), (15698,3622), (15735,3460), (15769,3298), (15802,3137), (15833,2977)])]

/-- Rows v = 20 to 24 of 42_normal.md rule R158. -/
def romRows20 : List RomRow :=
  [(3131, [
    (11371,11371), (11597,11141), (11811,10913), (12015,10689), (12208,10467), (12392,10248), (12568,10032), (12736,9819), 
    (12896,9608), (13048,9399), (13195,9193), (13335,8989), (13468,8787), (13597,8587), (13720,8389), (13837,8193), 
    (13950,8000), (14059,7808), (14163,7617), (14262,7429), (14358,7242), (14450,7057), (14538,6873), (14623,6691), 
    (14705,6510), (14783,6331), (14858,6153), (14930,5976), (14999,5801), (15065,5627), (15128,5454), (15189,5282), 
    (15247,5111), (15303,4941), (15357,4772), (15408,4605), (15457,4438), (15504,4272), (15548,4107), (15591,3942), 
    (15631,3779), (15670,3616), (15706,3454), (15741,3292), (15773,3131)]),
   (3286, [
    (11349,11349), (11575,11119), (11789,10892), (11992,10668), (12185,10447), (12369,10229), (12544,10013), (12711,9800), 
    (12871,9589), (13023,9381), (13169,9175), (13309,8971), (13443,8770), (13571,8570), (13693,8373), (13811,8178), 
    (13924,7984), (14032,7793), (14136,7603), (14235,7415), (14331,7228), (14422,7043), (14511,6860), (14595,6678), 
    (14676,6498), (14754,6319), (14829,6141), (14901,5965), (14970,5790), (15036,5616), (15099,5443), (15160,5272), 
    (15218,5101), (15274,4932), (15327,4763), (15378,4596), (15427,4429), (15474,4263), (15518,4099), (15561,3935), 
    (15601,3771), (15639,3609), (15676,3447), (15710,3286)]),
   (3440, [
    (11326,11326), (11551,11097), (11765,10870), (11967,10647), (12160,10426), (12344,10208), (12519,9993), (12686,9780), 
    (12845,9570), (12997,9362), (13143,9157), (13282,8953), (13415,8752), (13543,8553), (13666,8356), (13783,8161), 
    (13896,7968), (14003,7777), (14107,7587), (14206,7400), (14302,7213), (14393,7029), (14481,6846), (14566,6665), 
    (14647,6485), (14725,6306), (14799,6129), (14871,5953), (14940,5778), (15006,5605), (15069,5432), (15129,5261), 
    (15188,5091), (15243,4922), (15296,4754), (15347,4586), (15396,4420), (15443,4255), (15487,4090), (15529,3927), 
    (15570,3764), (15608,3602), (15644,3440)]),
   (3594, [
    (11302,11302), (11527,11073), (11740,10847), (11942,10624), (12135,10404), (12318,10187), (12492,9972), (12659,9760), 
    (12818,9550), (12970,9342), (13115,9137), (13254,8934), (13387,8734), (13515,8535), (13637,8339), (13754,8144), 
    (13866,7951), (13974,7760), (14077,7571), (14176,7384), (14272,7198), (14363,7014), (14451,6832), (14535,6650), 
    (14616,6471), (14693,6293), (14768,6116), (14839,5940), (14908,5766), (14974,5593), (15037,5421), (15097,5250), 
    (15155,5080), (15211,4911), (15264,4744), (15315,4577), (15364,4411), (15410,4246), (15454,4082), (15497,3918), 
    (15537,3756), (15575,3594)]),
   (3748, [
    (11278,11278), (11502,11049), (11714,10823), (11916,10601), (12108,10381), (12290,10164), (12465,9950), (12631,9738), 
    (12789,9529), (12941,9322), (13086,9117), (13225,8915), (13358,8714), (13485,8516), (13607,8320), (13724,8126), 
    (13836,7934), (13943,7743), (14046,7555), (14145,7368), (14240,7182), (14331,6999), (14419,6816), (14503,6636), 
    (14584,6457), (14661,6279), (14735,6102), (14807,5927), (14875,5753), (14941,5580), (15004,5409), (15064,5238), 
    (15122,5069), (15177,4900), (15230,4733), (15281,4567), (15330,4401), (15376,4237), (15420,4073), (15462,3910), 
    (15502,3748)])]

/-- Rows v = 25 to 29 of 42_normal.md rule R158. -/
def romRows25 : List RomRow :=
  [(3901, [
    (11252,11252), (11475,11024), (11687,10799), (11888,10576), (12080,10357), (12262,10141), (12436,9927), (12602,9715), 
    (12760,9507), (12911,9300), (13056,9096), (13194,8894), (13327,8694), (13454,8497), (13575,8301), (13692,8107), 
    (13804,7915), (13911,7725), (14014,7537), (14112,7351), (14207,7166), (14298,6982), (14386,6801), (14469,6620), 
    (14550,6442), (14627,6264), (14701,6088), (14773,5913), (14841,5740), (14906,5567), (14969,5396), (15029,5226), 
    (15087,5057), (15142,4889), (15195,4722), (15246,4556), (15294,4391), (15340,4227), (15385,4063), (15427,3901)]),
   (4054, [
    (11224,11224), (11447,10997), (11659,10773), (11860,10551), (12051,10332), (12233,10116), (12406,9903), (12571,9692), 
    (12729,9484), (12880,9278), (13025,9074), (13163,8873), (13295,8673), (13421,8476), (13543,8281), (13659,8088), 
    (13770,7896), (13877,7707), (13980,7519), (14079,7333), (14173,7149), (14264,6966), (14351,6784), (14435,6605), 
    (14515,6426), (14592,6249), (14666,6074), (14737,5899), (14805,5726), (14870,5554), (14933,5383), (14993,5214), 
    (15051,5045), (15106,4877), (15159,4711), (15209,4545), (15258,4380), (15304,4217), (15348,4054)]),
   (4206, [
    (11196,11196), (11419,10969), (11630,10746), (11830,10525), (12021,10306), (12202,10091), (12375,9878), (12540,9668), 
    (12697,9460), (12848,9255), (12992,9051), (13130,8850), (13261,8652), (13388,8455), (13509,8260), (13625,8067), 
    (13736,7877), (13843,7688), (13945,7500), (14043,7315), (14138,7131), (14228,6948), (14315,6767), (14399,6588), 
    (14479,6410), (14555,6234), (14629,6058), (14700,5884), (14768,5712), (14833,5540), (14896,5370), (14956,5201), 
    (15013,5032), (15068,4865), (15121,4699), (15171,4534), (15219,4370), (15265,4206)]),
   (4358, [
    (11167,11167), (11389,10941), (11599,10718), (11799,10497), (11989,10280), (12170,10065), (12343,9852), (12507,9643), 
    (12664,9435), (12815,9231), (12958,9028), (13095,8827), (13227,8629), (13353,8433), (13474,8239), (13589,8046), 
    (13700,7856), (13807,7668), (13909,7481), (14007,7296), (14101,7112), (14191,6930), (14278,6750), (14361,6571), 
    (14441,6393), (14518,6217), (14591,6043), (14662,5869), (14730,5697), (14795,5526), (14857,5356), (14917,5187), 
    (14974,5019), (15029,4853), (15081,4687), (15132,4522), (15180,4358)]),
   (4510, [
    (11137,11137), (11358,10911), (11568,10689), (11767,10469), (11957,10252), (12137,10038), (12309,9826), (12474,9617), 
    (12630,9410), (12780,9206), (12923,9003), (13060,8804), (13191,8606), (13317,8410), (13437,8217), (13553,8025), 
    (13663,7835), (13769,7647), (13871,7461), (13969,7276), (14063,7093), (14153,6911), (14239,6732), (14322,6553), 
    (14402,6376), (14478,6201), (14552,6026), (14622,5853), (14690,5681), (14755,5511), (14817,5341), (14877,5173), 
    (14934,5006), (14988,4839), (15041,4674), (15091,4510)])]

/-- Rows v = 30 to 34 of 42_normal.md rule R158. -/
def romRows30 : List RomRow :=
  [(4661, [
    (11106,11106), (11327,10881), (11536,10659), (11734,10440), (11923,10223), (12103,10009), (12275,9798), (12439,9590), 
    (12595,9384), (12744,9180), (12887,8978), (13024,8779), (13154,8582), (13280,8387), (13400,8194), (13515,8002), 
    (13625,7813), (13731,7625), (13832,7440), (13930,7256), (14023,7073), (14113,6892), (14199,6713), (14282,6535), 
    (14362,6358), (14438,6183), (14511,6009), (14581,5837), (14649,5666), (14713,5495), (14775,5326), (14835,5159), 
    (14892,4992), (14946,4826), (14999,4661)]),
   (4812, [
    (11074,11074), (11294,10849), (11502,10628), (11700,10409), (11889,10194), (12068,9980), (12239,9770), (12403,9562), 
    (12558,9356), (12707,9153), (12850,8952), (12986,8753), (13116,8557), (13241,8362), (13361,8170), (13475,7979), 
    (13586,7790), (13691,7603), (13792,7418), (13889,7234), (13983,7053), (14072,6872), (14158,6693), (14241,6516), 
    (14320,6340), (14396,6165), (14469,5992), (14539,5820), (14606,5649), (14671,5479), (14733,5311), (14792,5144), 
    (14849,4977), (14903,4812)]),
   (4962, [
    (11040,11040), (11260,10817), (11468,10596), (11665,10378), (11853,10163), (12032,9950), (12203,9741), (12365,9533), 
    (12521,9328), (12669,9126), (12811,8925), (12947,8727), (13077,8531), (13201,8337), (13321,8145), (13435,7955), 
    (13545,7767), (13650,7580), (13751,7396), (13848,7213), (13941,7031), (14030,6852), (14116,6673), (14198,6496), 
    (14277,6321), (14353,6147), (14426,5974), (14495,5802), (14562,5632), (14627,5463), (14688,5295), (14747,5128), 
    (14804,4962)]),
   (5112, [
    (11006,11006), (11225,10783), (11432,10563), (11629,10346), (11816,10131), (11995,9920), (12165,9710), (12327,9504), 
    (12482,9299), (12630,9097), (12771,8898), (12907,8700), (13036,8505), (13160,8311), (13279,8120), (13393,7930), 
    (13503,7743), (13608,7557), (13708,7373), (13805,7190), (13898,7010), (13987,6830), (14072,6652), (14154,6476), 
    (14233,6301), (14308,6128), (14381,5955), (14450,5784), (14517,5615), (14581,5446), (14643,5279), (14702,5112)]),
   (5262, [
    (10971,10971), (11189,10749), (11396,10529), (11592,10313), (11779,10099), (11956,9888), (12126,9679), (12287,9473), 
    (12442,9270), (12589,9068), (12730,8869), (12865,8672), (12994,8477), (13118,8285), (13237,8094), (13350,7905), 
    (13459,7718), (13564,7533), (13664,7349), (13761,7167), (13853,6987), (13942,6808), (14027,6631), (14109,6455), 
    (14187,6281), (14262,6108), (14335,5936), (14404,5766), (14471,5597), (14535,5429), (14596,5262)])]

/-- Rows v = 35 to 39 of 42_normal.md rule R158. -/
def romRows35 : List RomRow :=
  [(5411, [
    (10935,10935), (11152,10713), (11358,10494), (11553,10279), (11740,10066), (11917,9855), (12086,9647), (12247,9442), 
    (12401,9239), (12548,9038), (12688,8840), (12823,8644), (12951,8449), (13075,8257), (13193,8067), (13306,7879), 
    (13415,7692), (13519,7508), (13619,7325), (13715,7144), (13807,6964), (13896,6786), (13980,6609), (14062,6434), 
    (14140,6260), (14215,6088), (14287,5917), (14356,5747), (14423,5578), (14487,5411)]),
   (5559, [
    (10897,10897), (11114,10677), (11319,10459), (11514,10244), (11700,10031), (11876,9821), (12044,9614), (12205,9410), 
    (12358,9207), (12505,9007), (12645,8810), (12779,8614), (12907,8421), (13030,8229), (13148,8040), (13261,7852), 
    (13369,7666), (13473,7482), (13573,7300), (13668,7119), (13760,6940), (13848,6763), (13933,6587), (14014,6412), 
    (14092,6239), (14167,6067), (14239,5897), (14308,5727), (14374,5559)]),
   (5707, [
    (10859,10859), (11075,10639), (11279,10422), (11474,10208), (11658,9996), (11834,9787), (12002,9581), (12162,9377), 
    (12315,9175), (12461,8976), (12600,8779), (12734,8584), (12862,8391), (12984,8200), (13102,8011), (13214,7824), 
    (13322,7639), (13426,7456), (13525,7274), (13620,7094), (13712,6916), (13799,6739), (13884,6564), (13965,6390), 
    (14042,6217), (14117,6046), (14189,5876), (14257,5707)]),
   (5855, [
    (10820,10820), (11035,10600), (11238,10384), (11432,10171), (11616,9960), (11792,9752), (11959,9546), (12118,9343), 
    (12270,9142), (12416,8943), (12555,8747), (12688,8553), (12815,8361), (12937,8171), (13054,7982), (13166,7796), 
    (13274,7612), (13377,7429), (13476,7248), (13571,7069), (13662,6891), (13750,6715), (13834,6540), (13914,6366), 
    (13992,6194), (14066,6024), (14137,5855)]),
   (6001, [
    (10779,10779), (10994,10561), (11197,10345), (11389,10133), (11573,9923), (11748,9715), (11914,9510), (12073,9308), 
    (12225,9108), (12370,8910), (12508,8714), (12641,8521), (12768,8329), (12889,8140), (13006,7953), (13117,7767), 
    (13224,7583), (13327,7401), (13426,7221), (13520,7042), (13611,6865), (13698,6689), (13782,6515), (13862,6343), 
    (13939,6171), (14013,6001)])]

/-- Rows v = 40 to 44 of 42_normal.md rule R158. -/
def romRows40 : List RomRow :=
  [(6148, [
    (10738,10738), (10951,10520), (11154,10306), (11346,10094), (11529,9885), (11703,9678), (11868,9474), (12027,9272), 
    (12178,9073), (12322,8876), (12460,8681), (12592,8488), (12719,8298), (12840,8109), (12956,7922), (13067,7737), 
    (13174,7554), (13276,7373), (13374,7193), (13469,7015), (13559,6839), (13646,6664), (13729,6490), (13809,6318), 
    (13886,6148)]),
   (6293, [
    (10696,10696), (10908,10479), (11110,10265), (11301,10054), (11483,9846), (11656,9640), (11822,9437), (11979,9236), 
    (12130,9037), (12274,8841), (12411,8647), (12543,8455), (12669,8265), (12789,8077), (12905,7891), (13016,7707), 
    (13122,7524), (13224,7344), (13322,7165), (13415,6988), (13506,6812), (13592,6638), (13675,6465), (13755,6293)]),
   (6439, [
    (10652,10652), (10864,10437), (11065,10224), (11255,10013), (11437,9806), (11609,9601), (11774,9398), (11931,9198), 
    (12081,9000), (12224,8805), (12361,8612), (12492,8421), (12617,8231), (12737,8044), (12853,7859), (12963,7676), 
    (13069,7494), (13170,7314), (13268,7136), (13361,6959), (13451,6784), (13537,6611), (13620,6439)]),
   (6583, [
    (10608,10608), (10819,10393), (11019,10181), (11209,9972), (11389,9765), (11561,9561), (11725,9359), (11881,9160), 
    (12030,8963), (12173,8768), (12309,8576), (12440,8386), (12565,8197), (12684,8011), (12799,7826), (12909,7644), 
    (13014,7463), (13116,7284), (13213,7106), (13306,6930), (13395,6756), (13481,6583)]),
   (6727, [
    (10563,10563), (10773,10349), (10972,10138), (11161,9929), (11341,9723), (11512,9520), (11675,9319), (11831,9121), 
    (11979,8925), (12121,8731), (12257,8539), (12387,8350), (12511,8162), (12630,7977), (12745,7793), (12854,7611), 
    (12959,7431), (13060,7253), (13156,7076), (13249,6901), (13338,6727)])]

/-- Rows v = 45 to 49 of 42_normal.md rule R158. -/
def romRows45 : List RomRow :=
  [(6871, [
    (10517,10517), (10726,10304), (10924,10093), (11112,9886), (11291,9681), (11461,9478), (11624,9279), (11779,9081), 
    (11927,8886), (12068,8693), (12203,8502), (12333,8313), (12456,8126), (12575,7942), (12689,7759), (12798,7578), 
    (12902,7398), (13002,7221), (13099,7045), (13191,6871)]),
   (7013, [
    (10470,10470), (10677,10257), (10875,10048), (11062,9841), (11240,9637), (11410,9436), (11572,9237), (11726,9040), 
    (11873,8846), (12014,8654), (12148,8464), (12277,8276), (12401,8090), (12519,7906), (12632,7724), (12740,7544), 
    (12844,7365), (12944,7188), (13040,7013)]),
   (7155, [
    (10421,10421), (10628,10210), (10825,10002), (11011,9796), (11188,9593), (11357,9392), (11518,9194), (11672,8999), 
    (11819,8805), (11959,8614), (12093,8425), (12221,8238), (12343,8053), (12461,7870), (12574,7688), (12682,7509), 
    (12785,7331), (12884,7155)]),
   (7297, [
    (10372,10372), (10578,10162), (10774,9955), (10959,9750), (11136,9548), (11304,9348), (11464,9151), (11617,8956), 
    (11763,8764), (11902,8573), (12036,8385), (12163,8199), (12285,8015), (12402,7833), (12514,7652), (12622,7474), 
    (12725,7297)]),
   (7438, [
    (10322,10322), (10527,10113), (10722,9907), (10906,9703), (11082,9502), (11249,9303), (11409,9107), (11561,8913), 
    (11706,8721), (11845,8532), (11977,8345), (12104,8159), (12226,7976), (12342,7795), (12454,7615), (12561,7438)])]

/-- Rows v = 50 to 54 of 42_normal.md rule R158. -/
def romRows50 : List RomRow :=
  [(7578, [
    (10271,10271), (10475,10063), (10669,9858), (10852,9655), (11027,9455), (11194,9257), (11352,9062), (11504,8869), 
    (11648,8678), (11786,8490), (11918,8303), (12045,8119), (12165,7937), (12281,7756), (12392,7578)]),
   (7717, [
    (10219,10219), (10422,10012), (10615,9808), (10797,9606), (10971,9407), (11137,9210), (11295,9016), (11445,8824), 
    (11589,8634), (11726,8447), (11858,8261), (11984,8078), (12104,7896), (12219,7717)]),
   (7856, [
    (10166,10166), (10368,9960), (10560,9757), (10741,9556), (10914,9358), (11079,9162), (11236,8969), (11386,8778), 
    (11529,8590), (11666,8403), (11796,8218), (11921,8036), (12041,7856)]),
   (7993, [
    (10112,10112), (10313,9907), (10504,9705), (10684,9505), (10857,9308), (11020,9114), (11177,8922), (11326,8732), 
    (11468,8544), (11604,8358), (11734,8175), (11858,7993)]),
   (8131, [
    (10057,10057), (10257,9854), (10447,9652), (10627,9454), (10798,9258), (10961,9064), (11116,8873), (11264,8684), 
    (11406,8498), (11541,8313), (11670,8131)])]

/-- Rows v = 55 to 59 of 42_normal.md rule R158. -/
def romRows55 : List RomRow :=
  [(8267, [
    (10002,10002), (10200,9799), (10389,9599), (10568,9402), (10738,9207), (10900,9014), (11054,8824), (11202,8636), 
    (11343,8451), (11477,8267)]),
   (8403, [
    (9945,9945), (10142,9743), (10330,9545), (10508,9348), (10677,9154), (10838,8963), (10992,8774), (11138,8587), 
    (11278,8403)]),
   (8538, [
    (9887,9887), (10084,9687), (10270,9489), (10447,9294), (10615,9101), (10775,8911), (10928,8723), (11074,8538)]),
   (8672, [
    (9829,9829), (10024,9630), (10209,9433), (10385,9239), (10552,9048), (10712,8858), (10863,8672)]),
   (8805, [
    (9769,9769), (9963,9571), (10147,9376), (10322,9183), (10489,8993), (10647,8805)])]

/-- Rows v = 60 to 64 of 42_normal.md rule R158. -/
def romRows60 : List RomRow :=
  [(8937, [
    (9709,9709), (9902,9512), (10085,9318), (10259,9127), (10424,8937)]),
   (9069, [
    (9648,9648), (9839,9452), (10021,9259), (10194,9069)]),
   (9200, [
    (9586,9586), (9776,9391), (9957,9200)]),
   (9330, [
    (9523,9523), (9712,9330)]),
   (9459, [
    (9459,9459)])]

/-- The entries of one row: `ky` is the same for every u of the row (R158). -/
def romRowEntries (r : RomRow) : List RomEntry :=
  r.2.map fun xz => ⟨BitVec.ofNat 16 xz.1, BitVec.ofNat 16 r.1, BitVec.ofNat 16 xz.2⟩

/-- The default `NQT_TABLE`: row v holds the entries for u = 0 .. 64-v (R157, R158). -/
def nqtDefault : List (List RomEntry) :=
  (romRows00 ++ romRows05 ++ romRows10 ++ romRows15 ++ romRows20 ++ romRows25 ++ romRows30 ++
    romRows35 ++ romRows40 ++ romRows45 ++ romRows50 ++ romRows55 ++ romRows60).map romRowEntries

/-- binary32 nearest 1/sqrt(3), the component of a corner normal (R156). -/
def cornerK : F32 := 0x3F13CD3A#32

/-- binary32 of 1. -/
def one32 : F32 := 0x3F800000#32

/-- The default special normal of sextant `6 + s0` and octant `oct` (R156): axis normals have octant bit 0 clear and
take all three sign bits from octant bit 1; corner normals have it set. -/
def specialDefault (s0 : Bool) (oct : BitVec 3) : SpecialNormal :=
  if oct.getLsbD 0 = false then
    let o : BitVec 3 := if oct.getLsbD 1 then 7#3 else 0#3
    match s0, oct.getLsbD 2 with
    | false, false => ⟨one32, 0, 0, o⟩
    | false, true => ⟨0, one32, 0, o⟩
    | true, _ => ⟨0, 0, one32, o⟩
  else
    ⟨cornerK, cornerK, cornerK, (BitVec.ofBool s0 ++ oct.extractLsb' 1 2).setWidth 3⟩

/-- The default `SPECIAL_NORMALS`: code `8 * (sextant - 6) + octant` (R156). -/
def specialNormalsDefault : Vector SpecialNormal 16 :=
  Vector.ofFn fun i => specialDefault (decide (8 ≤ i.val)) (BitVec.ofNat 3 i.val)

/-- The parameters at their defaults (00_scope.md rule R6). -/
def defaultParams : Params :=
  { unwrittenRead := .fault, supportedMajor := 1, supportedMinor := 0
    nqt := nqtDefault, special := specialNormalsDefault }

end Sys2Proof.Machine
end

