-- ==== Sys2Proof/Machine/State.lean ====
section
/-! DEFINITION. The state of the CGD as plain data: all that 10_state.md gives the machine, the sink's events, and the
two fields of the model's own (`call`, `unspecifiedCount`). `Option` is the spec's own state ⊥ (10_state.md rule R38). -/

namespace Sys2Proof.Machine

/-- The position accumulator (10_state.md rule R25). -/
structure Position where
  x : Word16
  y : Word16
  z : Word16
deriving DecidableEq, Repr, Inhabited

/-- The color accumulator without alpha (10_state.md rule R26). -/
structure Color where
  r : Word16
  g : Word16
  b : Word16
deriving DecidableEq, Repr, Inhabited

/-- The normal accumulator (10_state.md rule R27): U and V are integers, which may leave their range for a moment. -/
structure Normal where
  sex : BitVec 3
  oct : BitVec 3
  u : Int
  v : Int
deriving DecidableEq, Repr, Inhabited

/-- A decode-table entry that is not INVALID (10_state.md rule R23). -/
structure Entry where
  tagLength : Nat
  dataLength : Nat
  rightShift : Nat
  absolute : Bool
deriving DecidableEq, Repr, Inhabited

/-- A decode table: 64 entries, `none` for INVALID (10_state.md rule R23). -/
abbrev Table := Vector (Option Entry) 64

/-- Which decode table (10_state.md rule R23): 0 position, 1 color, 2 normal. -/
inductive TableId where
  | position
  | color
  | normal
deriving DecidableEq, Repr, Inhabited

/-- A vertex cache entry: four parts, each a value or ⊥ on its own (10_state.md rule R31). -/
structure Slot where
  pos : Option Position
  normal : Option Normal
  color : Option Color
  alpha : Option Word16
deriving DecidableEq, Repr, Inhabited

/-- The reasons of the errors (60_exceptions.md rules R250, R251; 42_normal.md rules R148, R149). -/
inductive Reason where
  | precheck
  | refillPastEnd
  | version
  | reservedOpcode
  | reservedTable
  | unsetTableEntry
  | negativeLength
  | positionOverfit
  | undefinedRead
  | noWrapCase
  | outOfDomain
deriving DecidableEq, Repr, Inhabited

/-- The item an error names (60_exceptions.md rule R253). -/
inductive Info where
  /-- The rule names no item. -/
  | nothing
  /-- S + L_BYTES (PRECHECK). -/
  | endAddress (e : Nat)
  /-- The declared version (VERSION). -/
  | declared (major minor minorMinor : Nat)
  /-- The byte cursor (REFILL_PAST_END, 20_memory.md rule R53). -/
  | cursor (p : Nat)
  /-- The header (RESERVED_OPCODE). -/
  | header (h : Byte)
  /-- The table and the slot (30_encoding.md rule R79). -/
  | slot (table : TableId) (index : BitVec 6)
  /-- U and V (42_normal.md rules R148, R149). -/
  | uv (u v : Int)
deriving DecidableEq, Repr, Inhabited

/-- What an error records (60_exceptions.md rule R253). -/
structure ErrorRecord where
  code : Nat
  reason : Reason
  info : Info
  bitpos : Int
  header : Byte
deriving DecidableEq, Repr, Inhabited

/-- STATUS (10_state.md rule R32): IDLE between decodes (60_exceptions.md rule R266), RUN during one, and its result at
its end: DONE, or ERROR, which stays until the next Decode call. -/
inductive Status where
  | idle
  | run
  | done
  | error (e : ErrorRecord)
deriving DecidableEq, Repr, Inhabited

/-- Three binary32 values: a position or a unit normal as the sink gets it. -/
structure Vec3 where
  x : F32
  y : F32
  z : F32
deriving DecidableEq, Repr, Inhabited

/-- A color as the sink gets it: four components exactly when alpha is present (43_color.md rule R178). -/
structure ColorValue where
  r : F32
  g : F32
  b : F32
  a : Option F32
deriving DecidableEq, Repr, Inhabited

/-- The sink events (45_dispatch_control.md rule R224). -/
inductive Event where
  | vertexFormat (bn bc ba : Bool)
  | vertex (pos : Vec3) (normal : Option Vec3) (color : Option ColorValue) (rep : BitVec 2)
  | globalColor (color : ColorValue)
  | globalNormal (normal : Vec3)
deriving DecidableEq, Repr, Inhabited

/-- What the host does: start a decode (45_dispatch_control.md rule R210) of a byte array, a new one or the one it passed
before as that stands now (20_memory.md rule R64), or write a byte of that array (rule R62). -/
inductive HostCall where
  | decode (array : Option (List Byte)) (start len vmaj vmin vminmin : Nat)
  | writeBuffer (address : Nat) (value : Byte)
deriving DecidableEq, Repr, Inhabited

/-- The machine's state. -/
structure State where
  /-- BUF as the decode start latched it: constant during the decode (10_state.md rule R36; log entry 30). -/
  buf : Memory
  /-- SIZE: the addresses of BUF are 0 .. SIZE-1 (20_memory.md rule R50). -/
  size : Nat
  /-- S, the start offset (R36). -/
  start : Nat
  /-- L_BYTES (R36). -/
  len : Nat
  /-- The declared stream version (R36). -/
  vmaj : Nat
  vmin : Nat
  vminmin : Nat
  /-- The parameters and the normal ROM (00_scope.md rule R6; 10_state.md rule R34). -/
  params : Params
  /-- p, the byte cursor (R21). -/
  p : Nat
  /-- W, the bit window: its top `c` bits are unread (R21). -/
  w : Window
  /-- c, the number of unread bits in W (R21). -/
  c : Nat
  /-- CUR, the header being executed (R22). -/
  cur : Byte
  /-- NXT, the header fetched one step ahead (R22). -/
  nxt : Byte
  /-- T[0] (R23). -/
  posTable : Table
  /-- T[1] (R23). -/
  colTable : Table
  /-- T[2] (R23). -/
  nrmTable : Table
  /-- P (R25). -/
  pos : Option Position
  /-- C (R26). -/
  color : Option Color
  /-- A (R26). -/
  alpha : Option Word16
  /-- N (R27). -/
  normal : Option Normal
  /-- BN, normal bundled (R28). -/
  bn : Bool
  /-- BC, color bundled (R28). -/
  bc : Bool
  /-- BA, alpha present (R28). -/
  ba : Bool
  /-- USE_MN, use mesh normal (R28). -/
  useMn : Bool
  /-- USE_MC, use mesh color (R28). -/
  useMc : Bool
  /-- REP, the replace code (R29). -/
  rep : BitVec 2
  /-- WI, the mesh write index (R30). -/
  wi : BitVec 4
  /-- VC, the vertex cache (R31). -/
  vc : Vector Slot 16
  /-- STATUS (R32). -/
  status : Status
  /-- The events sent to the sink so far, oldest first (45_dispatch_control.md rule R225; log entry 12). -/
  events : List Event
  /-- The MODEL's own: a call the host has made and the CGD has not taken yet (log entry 6). -/
  call : Option HostCall
  /-- The MODEL's own: the host's byte array as it stands, which a decode start latches into BUF (log entry 30). -/
  hostBuf : Memory
  /-- The MODEL's own: the size of that array (log entry 30). -/
  hostSize : Nat
  /-- The MODEL's own: how many times free register values were taken (log entry 4). -/
  unspecifiedCount : Nat
deriving DecidableEq, Repr, Inhabited

/-- A slot whose parts all hold ⊥. -/
def emptySlot : Slot := ⟨none, none, none, none⟩

/-- The machine at decode start (10_state.md rule R37), under the default parameters. The host has supplied no bytes
(log entry 7): BUF and the host's array are empty, S = L_BYTES = 0, and the declared version is (1, 0, 0). -/
def State.reset : State :=
  { buf := [], size := 0, start := 0, len := 0, vmaj := 1, vmin := 0, vminmin := 0
    params := defaultParams
    p := 0, w := 0#32, c := 0
    cur := 0x00#8, nxt := 0x01#8
    posTable := Vector.replicate 64 none
    colTable := Vector.replicate 64 none
    nrmTable := Vector.replicate 64 none
    pos := none, color := none, alpha := none, normal := none
    bn := false, bc := false, ba := false, useMn := false, useMc := false
    rep := 0#2, wi := 15#4
    vc := Vector.replicate 16 emptySlot
    status := .run, events := [], call := none, hostBuf := [], hostSize := 0, unspecifiedCount := 0 }

/-- Why a step stops with no next state that the spec describes. -/
inductive Fault where
  /-- Raised by a read of an address that BUF does not have, which no state of a run reaches (20_memory.md rules R50 to
  R52), and by a host write to an address that the host's array does not have (log entry 11). Safe: the model stops. -/
  | noSuchByte (address : Nat)
deriving DecidableEq, Repr, Inhabited

/-- Why the model gives no meaning. -/
inductive Refusal where
  /-- Raised by an arm of `exec` whose instruction has no meaning yet. Safe: the model stops. No arm raises it. -/
  | notModelled (mnemonic : String)
  /-- Raised by a step that finds a Decode call while a decode runs: no defined result, a model may refuse
  (60_exceptions.md rule R259 item 1). Safe: the model stops. -/
  | decodeWhileRunning
  /-- Raised by a step that finds a host write to BUF[S..E-1] while a decode runs: no defined result, a model may
  refuse (60_exceptions.md rule R259 item 2). Safe: the model stops. -/
  | bufferChangedWhileRunning
deriving DecidableEq, Repr, Inhabited

end Sys2Proof.Machine

/-- FREE VALUES (log entry 3). The registers of the n-th state whose registers the spec leaves unspecified: after an
error (60_exceptions.md rule R254) and before the first decode (10_state.md rule R37). Nothing constrains them. -/
opaque Sys2Proof.Config.unspecified : Nat → Sys2Proof.Machine.State
end

