-- ==== Sys2Proof/Machine/Ops.lean ====
section
/-! DEFINITION. The named operations: updates of State, the computations of a step, raising an error and entering it
(60_exceptions.md rule R253), the byte reads and the bit-field extractor (20_memory.md), the sink. -/

namespace Sys2Proof.Machine

/-! Updates, one for each group of registers that is written together. -/

/-- Write p, W and c. -/
def State.setBfx (s : State) (p : Nat) (w : Window) (c : Nat) : State := { s with p := p, w := w, c := c }

/-- Write CUR. -/
def State.setCur (s : State) (h : Byte) : State := { s with cur := h }

/-- Write NXT. -/
def State.setNxt (s : State) (h : Byte) : State := { s with nxt := h }

/-- Write one whole decode table. -/
def State.setTable (s : State) (k : TableId) (t : Table) : State :=
  match k with
  | .position => { s with posTable := t }
  | .color => { s with colTable := t }
  | .normal => { s with nrmTable := t }

/-- Write P. -/
def State.setPos (s : State) (v : Position) : State := { s with pos := some v }

/-- Write C. -/
def State.setColor (s : State) (v : Color) : State := { s with color := some v }

/-- Write A. -/
def State.setAlpha (s : State) (v : Word16) : State := { s with alpha := some v }

/-- Write N. -/
def State.setNormal (s : State) (v : Normal) : State := { s with normal := some v }

/-- Write REP. -/
def State.setRep (s : State) (v : BitVec 2) : State := { s with rep := v }

/-- Write WI. -/
def State.setWi (s : State) (v : BitVec 4) : State := { s with wi := v }

/-- Write the slot `j` of the vertex cache. -/
def State.setSlot (s : State) (j : BitVec 4) (v : Slot) : State :=
  { s with vc := s.vc.set j.toNat v (by have := j.isLt; omega) }

/-- Write STATUS. -/
def State.setStatus (s : State) (v : Status) : State := { s with status := v }

/-- Append one event to what the sink has received (45_dispatch_control.md rule R225). -/
def State.emit (s : State) (e : Event) : State := { s with events := s.events ++ [e] }

/-- Write the pending host call. -/
def State.setCall (s : State) (v : Option HostCall) : State := { s with call := v }

/-! Reads that are more than a field. -/

/-- E = S + L_BYTES (10_state.md rule R36). -/
def State.endAddr (s : State) : Nat := s.start + s.len

/-- The table `k` (10_state.md rule R23). -/
def State.table (s : State) : TableId → Table
  | .position => s.posTable
  | .color => s.colTable
  | .normal => s.nrmTable

/-- The slot `j` of the vertex cache (10_state.md rule R31). -/
def State.slot (s : State) (j : BitVec 4) : Slot := s.vc[j.toNat]'(by have := j.isLt; omega)

/-- The stream offset of the next unread bit, `8 (p - S) - c` (20_memory.md rule R56). -/
def State.bitpos (s : State) : Int := 8 * ((s.p : Int) - s.start) - s.c

/-- Whether bits remain: the loop condition (45_dispatch_control.md rule R211). -/
def State.moreBits (s : State) : Bool := decide (s.p < s.endAddr) || decide (0 < s.c)

/-! Computations of a step. -/

/-- Why a computation stops before its end: it raises an error, or it touches a byte that does not exist. -/
inductive Stop where
  | raise (reason : Reason) (info : Info)
  | noByte (address : Nat)
deriving DecidableEq, Repr, Inhabited

/-- A computation on the state. -/
abbrev Op (α : Type) := EStateM Stop State α

/-- `raise E(reason, info)` (60_exceptions.md rule R253). -/
def raise {α : Type} (reason : Reason) (info : Info) : Op α := fun s => .error (.raise reason info) s

/-- The code of the error kind a reason belongs to (60_exceptions.md rule R250): 1 BufferBounds, 2
UnsupportedVersion, 3 MalformedStream, 4 MalformedNormal. -/
def Reason.code : Reason → Nat
  | .precheck | .refillPastEnd => 1
  | .version => 2
  | .reservedOpcode | .reservedTable | .unsetTableEntry | .negativeLength | .positionOverfit | .undefinedRead => 3
  | .noWrapCase | .outOfDomain => 4

/-- The state that an error leaves: STATUS holds its record, the buffer, the latched request, the parameters, the
delivered events, a pending call and the host's array stay, and every other register is unspecified (60_exceptions.md rules R253,
R254; log entries 3 and 4). -/
def stopWith (e : ErrorRecord) (s : State) : State :=
  { Config.unspecified s.unspecifiedCount with
    buf := s.buf, size := s.size, start := s.start, len := s.len
    vmaj := s.vmaj, vmin := s.vmin, vminmin := s.vminmin
    params := s.params, events := s.events, call := s.call, hostBuf := s.hostBuf, hostSize := s.hostSize
    status := .error e, unspecifiedCount := s.unspecifiedCount + 1 }

/-- Taking an error (60_exceptions.md rule R253): the record holds the code, the reason, the item, the stream offset
of the next unread bit and CUR, all as they stand when the error is raised. -/
def enterError (reason : Reason) (info : Info) (s : State) : State :=
  stopWith ⟨reason.code, reason, info, s.bitpos, s.cur⟩ s

/-- What a stopped computation answers: the state after the error, or the model's fault. -/
def stopped (e : Stop) (s : State) : Host.Outcome State Fault Refusal :=
  match e with
  | .raise reason info => .next (enterError reason info s)
  | .noByte a => .fault (.noSuchByte a)

/-- Run a command's computation to the end of the command. -/
def runOp (m : Op Unit) (s : State) : Host.Outcome State Fault Refusal :=
  match m s with
  | .ok _ s' => .next s'
  | .error e s' => stopped e s'

/-- Apply an update. -/
def update (f : State → State) : Op Unit := fun s => .ok () (f s)

/-- `Need(v)`: the value, or UNDEFINED_READ where there is none (10_state.md rule R38). -/
def need {α : Type} (v : Option α) : Op α :=
  match v with
  | some a => pure a
  | none => raise .undefinedRead .nothing

/-- `Emit(e)` (45_dispatch_control.md rule R225). -/
def emit (e : Event) : Op Unit := update (·.emit e)

/-! The buffer and the bit-field extractor. -/

/-- `MemRead(a, 1)` (20_memory.md rule R52). The rule defines it for S ≤ a < E only; that it answers the byte at any other
address below SIZE is the model's choice (DESIGN CHOICE, log entry 29), which no run reaches. -/
def memRead (a : Nat) : Op Byte := fun s =>
  if a < s.size then .ok (s.buf.read a) s else .error (.noByte a) s

/-- `Refill()`: the next four bytes, the first most significant (20_memory.md rule R53). -/
def refill : Op Unit := do
  let s ← get
  if s.endAddr < s.p + 4 then raise .refillPastEnd (.cursor s.p)
  let b0 ← memRead s.p
  let b1 ← memRead (s.p + 1)
  let b2 ← memRead (s.p + 2)
  let b3 ← memRead (s.p + 3)
  update (·.setBfx (s.p + 4) (b0 ++ b1 ++ b2 ++ b3) 32)

/-- `GetBits(n)` from a window that holds at least `n` unread bits (20_memory.md rule R55). -/
def takeBits (n : Nat) : Op Nat := do
  let s ← get
  update (·.setBfx s.p (s.w <<< n) (s.c - n))
  return (s.w >>> (32 - n)).toNat

/-- `GetBits(n)` for 0 ≤ n ≤ 32: the next `n` stream bits, most significant first (20_memory.md rule R55). -/
def getBits (n : Nat) : Op Nat := do
  if n = 0 then return 0
  if (← get).c = 0 then refill
  let s ← get
  if n ≤ s.c then takeBits n
  else
    let hi := (s.w >>> (32 - s.c)).toNat
    refill
    let lo ← takeBits (n - s.c)
    return hi * 2 ^ (n - s.c) + lo

/-- `NXT <- GetBits(n)` (45_dispatch_control.md rules R212, R213). A subheader stands zero-extended. -/
def fetchNext (n : Nat) : Op Unit := do
  let b ← getBits n
  update (·.setNxt (BitVec.ofNat 8 b))

end Sys2Proof.Machine
end

