-- ==== Sys2Proof/Machine/Flags.lean ====
section
/-! DEFINITION. Every write of the status flags (10_state.md rule R28). -/

namespace Sys2Proof.Machine

/-- Write BN, BC and BA (45_dispatch_control.md rule R218). -/
def State.setBundling (s : State) (bn bc ba : Bool) : State := { s with bn := bn, bc := bc, ba := ba }

/-- Clear USE_MN (42_normal.md rule R141). -/
def State.clearUseMn (s : State) : State := { s with useMn := false }

/-- Clear USE_MC (43_color.md rule R171). -/
def State.clearUseMc (s : State) : State := { s with useMc := false }

/-- Clear USE_MN and USE_MC (41_vertex.md rule R127; 44_mesh_reference.md rule R196). -/
def State.clearMeshUse (s : State) : State := { s with useMn := false, useMc := false }

/-- Set USE_MN and USE_MC after an emitted vertex (45_dispatch_control.md rule R217). -/
def State.setMeshUse (s : State) : State := { s with useMn := true, useMc := true }

end Sys2Proof.Machine
end

