-- ==== Sys2Proof/Machine/Operands.lean ====
section
/-! DEFINITION. Operand forms: field unpacking, table lookup, value assembly and accumulation (30_encoding.md rules R74
to R79). -/

namespace Sys2Proof.Machine

/-- Bits `lo + w - 1` down to `lo` of `v` as a number (00_scope.md rule R7). -/
def bitField (v lo w : Nat) : Nat := v / 2 ^ lo % 2 ^ w

/-- `sext_N(v)`: the N-bit value `v` read as two's complement; `sext_0` is 0 (00_scope.md rule R8). -/
def sext (n v : Nat) : Int :=
  if n = 0 then 0 else if v < 2 ^ (n - 1) then v else (v : Int) - 2 ^ n

/-- `sext_L(f) << rs`, a signed field's value (30_encoding.md rule R78). -/
def signedValue (L rs f : Nat) : Int := sext L f * 2 ^ rs

/-- `zext_L(f) << rs`, an unsigned field's value: u and v of an absolute normal (30_encoding.md rule R78). -/
def unsignedValue (rs f : Nat) : Int := f * 2 ^ rs

/-- `wrap16`, as a 16-bit two's-complement register holds it (00_scope.md rule R8). -/
def wrap16 (v : Int) : Word16 := BitVec.ofInt 16 v

/-- `Unpack` from `avail` header bits on: each field takes what the header still holds and the stream gives the rest
(30_encoding.md rule R75). -/
def unpackFrom (h6 : BitVec 6) (avail : Nat) : List Nat → Op (List Nat)
  | [] => return []
  | w :: ws => do
    if w ≤ avail then
      let fs ← unpackFrom h6 (avail - w) ws
      return bitField h6.toNat (avail - w) w :: fs
    else
      let lo ← getBits (w - avail)
      let fs ← unpackFrom h6 0 ws
      return (bitField h6.toNat 0 avail * 2 ^ (w - avail) + lo) :: fs

/-- `Unpack(h6, t, [w1, ..., wk])` (30_encoding.md rule R75): after the tag, `6 - t` header bits are left. -/
def unpack (h6 : BitVec 6) (t : Nat) (ws : List Nat) : Op (List Nat) := unpackFrom h6 (6 - t) ws

/-- The `i`-th of the fields that `unpack` returned. -/
def fieldAt (fs : List Nat) (i : Nat) : Nat := fs.getD i 0

/-- `dataLength - rightShift` (30_encoding.md rule R76). It is the field length where it is not negative. -/
def Entry.fieldLength (e : Entry) : Nat := e.dataLength - e.rightShift

/-- The entry a header's low six bits select in the table `k` (30_encoding.md rule R79). -/
def State.entryAt (s : State) (k : TableId) (h6 : BitVec 6) : Option Entry :=
  (s.table k)[h6.toNat]'(by have := h6.isLt; omega)

/-- `Lookup(k)` for the header bits `h6 = CUR[5:0]` (30_encoding.md rules R77, R79). It reads no stream bit. -/
def lookup (k : TableId) (h6 : BitVec 6) : Op Entry := do
  match (← get).entryAt k h6 with
  | none => raise .unsetTableEntry (.slot k h6)
  | some e =>
    if e.dataLength < e.rightShift then raise .negativeLength (.slot k h6)
    return e

/-- Component-wise sum, each reduced by wrap16 (41_vertex.md rule R125). -/
def Position.add (a d : Position) : Position := ⟨a.x + d.x, a.y + d.y, a.z + d.z⟩

/-- Component-wise sum, each reduced by wrap16 (43_color.md rule R175). -/
def Color.add (a d : Color) : Color := ⟨a.r + d.r, a.g + d.g, a.b + d.b⟩

/-! Set table. -/

/-- `HighestSetBit` of the 7-bit address: the tag length; 0 for the address 0 (40_set_table.md rule R103). -/
def highestSetBit (adr : BitVec 7) : Nat :=
  if adr.getLsbD 6 then 6
  else if adr.getLsbD 5 then 5
  else if adr.getLsbD 4 then 4
  else if adr.getLsbD 3 then 3
  else if adr.getLsbD 2 then 2
  else if adr.getLsbD 1 then 1
  else 0

/-- The first slot an STB writes (40_set_table.md rule R104). -/
def baseSlot (adr : BitVec 7) : Nat := adr.toNat * 2 ^ (6 - highestSetBit adr) % 64

/-- The table with the entry `e` in every slot of the address's range (40_set_table.md rule R106). -/
def fillSlots (t : Table) (adr : BitVec 7) (e : Entry) : Table :=
  Vector.ofFn fun i =>
    if baseSlot adr ≤ i.val ∧ i.val < baseSlot adr + 2 ^ (6 - highestSetBit adr) then some e else t[i]

/-- The stored data length: a coded 0 means 16 but in the normal table (40_set_table.md rule R105). -/
def storedLength (k : TableId) (dl : Nat) : Nat :=
  match k with
  | .normal => dl
  | .position | .color => if dl = 0 then 16 else dl

/-- The table of a select value; 3 names none (40_set_table.md rules R101, R102). -/
def tableOfSelect (s : BitVec 2) : Option TableId :=
  if s = 0#2 then some .position
  else if s = 1#2 then some .color
  else if s = 2#2 then some .normal
  else none

end Sys2Proof.Machine
end

