-- ==== Sys2Proof/Machine/Control.lean ====
section
/-! DEFINITION. Set state, the control commands and the reserved headers (45_dispatch_control.md rules R218 to R222,
30_encoding.md rule R84). -/

namespace Sys2Proof.Machine

/-- SST with `bn = CUR[0]`: the body is `{BC, BA, z}` and z is ignored; the header bits `x` are ignored
(45_dispatch_control.md rule R218; 30_encoding.md rule R86). -/
def execSst (_x : BitVec 2) (bn : Bool) (s : State) : Host.Outcome State Fault Refusal :=
  runOp (do
    let ii ← getBits 3
    let bc := ii.testBit 2
    let ba := ii.testBit 1
    update (·.setBundling bn bc ba)
    emit (.vertexFormat bn bc ba)) s

/-- EOS does nothing: the decode ends when the input does (45_dispatch_control.md rules R211, R219). -/
def execEos (s : State) : Host.Outcome State Fault Refusal := runOp (pure ()) s

/-- VNOP: a 5-bit count, then that many bits, discarded (45_dispatch_control.md rule R220). -/
def execVnop (s : State) : Host.Outcome State Fault Refusal :=
  runOp (do
    let n ← getBits 5
    let _ ← getBits n) s

/-- SKIP8: 8 bits, discarded (45_dispatch_control.md rule R221). -/
def execSkip8 (s : State) : Host.Outcome State Fault Refusal :=
  runOp (do let _ ← getBits 8) s

/-- PASS: 24 bits, then 32 bits, discarded; the sink gets nothing (45_dispatch_control.md rule R222). -/
def execPass (s : State) : Host.Outcome State Fault Refusal :=
  runOp (do
    let _ ← getBits 24
    let _ ← getBits 32) s

/-- A reserved header raises RESERVED_OPCODE before any body bit is read (30_encoding.md rule R84). -/
def reservedHeader (h : Byte) : Op Unit := raise .reservedOpcode (.header h)

/-- RESERVED header 0x02 (30_encoding.md rule R84). -/
def execReserved02 (s : State) : Host.Outcome State Fault Refusal := runOp (reservedHeader 0x02#8) s

/-- RESERVED header 0x03 (30_encoding.md rule R84). -/
def execReserved03 (s : State) : Host.Outcome State Fault Refusal := runOp (reservedHeader 0x03#8) s

/-- RESERVED header 0x04 (30_encoding.md rule R84). -/
def execReserved04 (s : State) : Host.Outcome State Fault Refusal := runOp (reservedHeader 0x04#8) s

/-- RESERVED header 0x05 (30_encoding.md rule R84). -/
def execReserved05 (s : State) : Host.Outcome State Fault Refusal := runOp (reservedHeader 0x05#8) s

/-- RESERVED header 0x06 (30_encoding.md rule R84). -/
def execReserved06 (s : State) : Host.Outcome State Fault Refusal := runOp (reservedHeader 0x06#8) s

/-- RESERVED header 0x09 (30_encoding.md rule R84). -/
def execReserved09 (s : State) : Host.Outcome State Fault Refusal := runOp (reservedHeader 0x09#8) s

/-- RESERVED header 0x0A (30_encoding.md rule R84). -/
def execReserved0A (s : State) : Host.Outcome State Fault Refusal := runOp (reservedHeader 0x0A#8) s

/-- RESERVED header 0x0B (30_encoding.md rule R84). -/
def execReserved0B (s : State) : Host.Outcome State Fault Refusal := runOp (reservedHeader 0x0B#8) s

/-- RESERVED header 0x0C (30_encoding.md rule R84). -/
def execReserved0C (s : State) : Host.Outcome State Fault Refusal := runOp (reservedHeader 0x0C#8) s

/-- RESERVED header 0x0D (30_encoding.md rule R84). -/
def execReserved0D (s : State) : Host.Outcome State Fault Refusal := runOp (reservedHeader 0x0D#8) s

/-- RESERVED header 0x0E (30_encoding.md rule R84). -/
def execReserved0E (s : State) : Host.Outcome State Fault Refusal := runOp (reservedHeader 0x0E#8) s

/-- RESERVED header 0x0F (30_encoding.md rule R84). -/
def execReserved0F (s : State) : Host.Outcome State Fault Refusal := runOp (reservedHeader 0x0F#8) s

end Sys2Proof.Machine
end

