-- ==== Sys2Proof/Machine/Floats.lean ====
section
/-! DEFINITION. The binary32 outputs (00_scope.md rule R11): exact conversions of fixed-point integers, and the sign
flip. -/

namespace Sys2Proof.Machine

/-- The binary32 value `k / 2^frac`. It is exact for |k| < 2^24 and frac ≤ 126; every caller has |k| ≤ 2^15 and frac 14
or 15 (00_scope.md rule R11). The leading bit of |k| gives the exponent, the bits below it the fraction. -/
def binary32OfFixed (k : Int) (frac : Nat) : F32 :=
  if k = 0 then 0#32
  else
    let m := k.natAbs
    let top := Nat.log2 m
    let sign : Nat := if k < 0 then 1 else 0
    BitVec.ofNat 32 (sign * 2 ^ 31 + (127 + top - frac) * 2 ^ 23 + (m * 2 ^ (23 - top) - 2 ^ 23))

/-- `fx(v) = v / 32768` (00_scope.md rule R11; 41_vertex.md rule R129). -/
def fx (v : Word16) : F32 := binary32OfFixed v.toInt 15

/-- The value of a ROM integer, `k / 16384` (10_state.md rule R34). -/
def romValue (k : Word16) : F32 := binary32OfFixed k.toInt 14

/-- Negation flips the sign bit, of a zero too (00_scope.md rule R11). -/
def negate (f : F32) : F32 := f ^^^ 0x80000000#32

/-- Flip the sign where the octant bit says so (42_normal.md rule R155). -/
def negateIf (b : Bool) (f : F32) : F32 := if b then negate f else f

/-- The position as the sink gets it (41_vertex.md rule R129). -/
def Position.toFloats (v : Position) : Vec3 := ⟨fx v.x, fx v.y, fx v.z⟩

/-- The color as the sink gets it, with the alpha channel where there is one (43_color.md rule R178). -/
def Color.toFloats (v : Color) (a : Option Word16) : ColorValue := ⟨fx v.r, fx v.g, fx v.b, a.map fx⟩

end Sys2Proof.Machine
end

