-- ==== Sys2Proof/Machine/Convert.lean ====
section
/-! DEFINITION. From a fixed-point normal to a unit vector (42_normal.md rules R153 to R158), and the wraparound
corrections of a relative normal (rules R144 to R149). -/

namespace Sys2Proof.Machine

/-- `InDomain(U, V)` (42_normal.md rule R140). -/
def inDomain (u v : Int) : Bool := decide (0 ≤ u) && decide (0 ≤ v) && decide (u + v ≤ 64)

/-- The ROM entry for (u, v) in the triangle; outside it there is none, and the read gives a free value (42_normal.md
rules R157, R159; log entry 14). -/
def romEntry (params : Params) (u v : Int) : RomEntry :=
  match if inDomain u v then (params.nqt[v.toNat]?).bind (·[u.toNat]?) else none with
  | some e => e
  | none => Config.absentRomEntry u v

/-- Swap the first and the third component (42_normal.md rule R154). -/
def Vec3.swapXZ (n : Vec3) : Vec3 := ⟨n.z, n.y, n.x⟩

/-- Swap the second and the third component (42_normal.md rule R154). -/
def Vec3.swapYZ (n : Vec3) : Vec3 := ⟨n.x, n.z, n.y⟩

/-- Swap the first and the second component (42_normal.md rule R154). -/
def Vec3.swapXY (n : Vec3) : Vec3 := ⟨n.y, n.x, n.z⟩

/-- The sextant's axis swaps, in the order bit 2, bit 1, bit 0 (42_normal.md rules R153, R154). -/
def permute (sex : BitVec 3) (n : Vec3) : Vec3 :=
  let n := if sex.getLsbD 2 then n.swapXZ else n
  let n := if sex.getLsbD 1 then n.swapYZ else n
  if sex.getLsbD 0 then n.swapXY else n

/-- The octant's sign flips: bit 0 negates z, bit 1 y, bit 2 x (42_normal.md rule R155). -/
def flipSigns (o : BitVec 3) (n : Vec3) : Vec3 :=
  ⟨negateIf (o.getLsbD 2) n.x, negateIf (o.getLsbD 1) n.y, negateIf (o.getLsbD 0) n.z⟩

/-- The special normal of a sextant 6 or 7 (42_normal.md rule R156). -/
def specialNormal (params : Params) (sex oct : BitVec 3) : SpecialNormal :=
  params.special[8 * (sex.toNat % 2) + oct.toNat]'(by have := oct.isLt; omega)

/-- `Convert(sex, oct, u, v)` (42_normal.md rule R153). -/
def convert (params : Params) (n : Normal) : Vec3 :=
  if n.sex.toNat ≤ 5 then
    let e := romEntry params n.u n.v
    flipSigns n.oct (permute n.sex ⟨romValue e.kx, romValue e.ky, romValue e.kz⟩)
  else
    let e := specialNormal params n.sex n.oct
    flipSigns e.o ⟨e.x, e.y, e.z⟩

/-- The sextant after a u-wrap (42_normal.md rule R145). -/
def uWrapSextant (sex : BitVec 3) : BitVec 3 :=
  if sex = 0#3 then 4#3
  else if sex = 1#3 then 5#3
  else if sex = 2#3 then 3#3
  else if sex = 3#3 then 2#3
  else if sex = 4#3 then 0#3
  else if sex = 5#3 then 1#3
  else sex

/-- The octant bit a v-wrap flips (42_normal.md rule R146). -/
def vWrapBit (sex : BitVec 3) : BitVec 3 :=
  if sex = 0#3 then 2#3
  else if sex = 1#3 then 4#3
  else if sex = 2#3 then 1#3
  else if sex = 3#3 then 1#3
  else if sex = 4#3 then 2#3
  else if sex = 5#3 then 4#3
  else 0#3

/-- The sextant after a uv-wrap (42_normal.md rule R147). -/
def uvWrapSextant (sex : BitVec 3) : BitVec 3 :=
  if sex = 0#3 then 2#3
  else if sex = 1#3 then 3#3
  else if sex = 2#3 then 0#3
  else if sex = 3#3 then 1#3
  else if sex = 4#3 then 5#3
  else if sex = 5#3 then 4#3
  else sex

/-- `Wrap(sex, oct, U, V)`: the one correction whose condition holds; `none` where U and V are both negative
(42_normal.md rules R144 to R148). -/
def wrapNormal (n : Normal) : Option Normal :=
  if n.u < 0 ∧ 0 ≤ n.v then some { n with sex := uWrapSextant n.sex, u := -n.u }
  else if 0 ≤ n.u ∧ n.v < 0 then some { n with oct := n.oct ^^^ vWrapBit n.sex, v := -n.v }
  else if 0 ≤ n.u ∧ 0 ≤ n.v ∧ 64 < n.u + n.v then
    some { n with sex := uvWrapSextant n.sex, u := 64 - n.u, v := 64 - n.v }
  else none

end Sys2Proof.Machine
end

