-- ==== Sys2Proof/Machine/Emit.lean ====
section
/-! DEFINITION. What the sink gets: the color output and the vertex emission (43_color.md rule R178,
45_dispatch_control.md rules R216, R217). -/

namespace Sys2Proof.Machine

/-- `ColorOut()`: alpha is a component exactly when BA = 1 (43_color.md rule R178). -/
def colorOut : Op ColorValue := do
  let s ← get
  let c ← need s.color
  if s.ba then
    let a ← need s.alpha
    return c.toFloats (some a)
  else return c.toFloats none

/-- The normal of the vertex being emitted: null unless BN = 1 (45_dispatch_control.md rule R216). -/
def vertexNormal : Op (Option Vec3) := do
  let s ← get
  if s.bn then
    let n ← need s.normal
    return some (convert s.params n)
  else return none

/-- The color of the vertex being emitted: null unless BC = 1 (45_dispatch_control.md rule R216). -/
def vertexColor : Op (Option ColorValue) := do
  if (← get).bc then
    let c ← colorOut
    return some c
  else return none

/-- `EmitVertex()` (45_dispatch_control.md rules R216, R217). -/
def emitVertex : Op Unit := do
  let s ← get
  let p ← need s.pos
  let n ← vertexNormal
  let c ← vertexColor
  emit (.vertex p.toFloats n c s.rep)
  update (·.setMeshUse)

end Sys2Proof.Machine
end

