-- ==== Sys2Proof/Machine/Mesh.lean ====
section
/-! DEFINITION. Mesh buffer reference (44_mesh_reference.md rules R190 to R201). -/

namespace Sys2Proof.Machine

/-- Copy the slot's normal into N when it is bundled and no NRM ran since the last vertex (44_mesh_reference.md rule
R194). -/
def reuseNormal (slot : Slot) : Op Unit := do
  let s ← get
  if s.bn && s.useMn then
    let n ← need slot.normal
    update (·.setNormal n)

/-- Copy the slot's color into C, and its alpha into A when BA = 1, when color is bundled and no COL ran since the last
vertex (44_mesh_reference.md rule R195). -/
def reuseColor (slot : Slot) : Op Unit := do
  let s ← get
  if s.bc && s.useMc then
    let c ← need slot.color
    update (·.setColor c)
    if s.ba then
      let a ← need slot.alpha
      update (·.setAlpha a)

/-- `MBR()` with `k = CUR[4:1]` and `r1 = CUR[0]` (44_mesh_reference.md rule R190). -/
def meshReference (k : BitVec 4) (r1 : Bool) : Op Unit := do
  let r0 ← getBits 1
  update (·.setRep (BitVec.ofBool r1 ++ BitVec.ofNat 1 r0))
  let s ← get
  let slot := s.slot (s.wi - k)
  let p ← need slot.pos
  update (·.setPos p)
  reuseNormal slot
  reuseColor slot
  update (·.clearMeshUse)

/-- MBR: the reference, then the vertex emission in the same step (45_dispatch_control.md rule R223). -/
def execMbr (k : BitVec 4) (r1 : Bool) (s : State) : Host.Outcome State Fault Refusal :=
  runOp (do meshReference k r1; emitVertex) s

end Sys2Proof.Machine
end

