-- ==== Sys2Proof/Machine/SetTable.lean ====
section
/-! DEFINITION. Set table (40_set_table.md rules R100 to R108). -/

namespace Sys2Proof.Machine

/-- The entry that an STB body `ii` gives for the table `k` and the tag length `t` (40_set_table.md rules R100,
R105). -/
def entryOfBody (k : TableId) (t : Nat) (ii : BitVec 15) : Entry :=
  { tagLength := t, dataLength := storedLength k (ii.extractLsb' 5 4).toNat
    rightShift := (ii.extractLsb' 0 4).toNat, absolute := ii.getLsbD 4 }

/-- The 7-bit address: bit 6 from the header, the rest from the body (30_encoding.md rule R87). -/
def tableAddress (a6 : Bool) (ii : BitVec 15) : BitVec 7 := BitVec.ofBool a6 ++ ii.extractLsb' 9 6

/-- `STB()` with `s = CUR[2:1]` and `a6 = CUR[0]` (40_set_table.md rule R100). -/
def setTableCommand (sel : BitVec 2) (a6 : Bool) : Op Unit := do
  match tableOfSelect sel with
  | none => raise .reservedTable .nothing
  | some k =>
    let ii ← getBits 15
    let ii := BitVec.ofNat 15 ii
    let adr := tableAddress a6 ii
    let e := entryOfBody k (highestSetBit adr) ii
    update fun s => s.setTable k (fillSlots (s.table k) adr e)

/-- STB (40_set_table.md rule R100). -/
def execStb (sel : BitVec 2) (a6 : Bool) (s : State) : Host.Outcome State Fault Refusal :=
  runOp (setTableCommand sel a6) s

/-- STB_RESERVED_SELECT: table select 3 raises RESERVED_TABLE before the body is read; `a6` is ignored
(40_set_table.md rule R102). -/
def execStbReservedSelect (_a6 : Bool) (s : State) : Host.Outcome State Fault Refusal :=
  runOp (raise .reservedTable .nothing) s

end Sys2Proof.Machine
end

