-- ==== Sys2Proof/Machine/Color.lean ====
section
/-! DEFINITION. Set color (43_color.md rules R170 to R178), on its own and bundled in a vertex. -/

namespace Sys2Proof.Machine

/-- How many channels a color command carries (43_color.md rule R173). -/
def channelCount (ba : Bool) : Nat := if ba then 4 else 3

/-- The value of the `i`-th channel field (43_color.md rule R174). -/
def channelValue (e : Entry) (fs : List Nat) (i : Nat) : Word16 :=
  wrap16 (signedValue e.fieldLength e.rightShift (fieldAt fs i))

/-- Accumulate the channels: an absolute entry replaces C, a relative one adds to it; A likewise when BA = 1, else A is
neither read nor written (43_color.md rule R175). -/
def accumulateColor (e : Entry) (fs : List Nat) : Op Unit := do
  let s ← get
  let d : Color := ⟨channelValue e fs 0, channelValue e fs 1, channelValue e fs 2⟩
  if e.absolute then
    update (·.setColor d)
    if s.ba then update (·.setAlpha (channelValue e fs 3))
  else
    let c ← need s.color
    update (·.setColor (c.add d))
    if s.ba then
      let a ← need s.alpha
      update (·.setAlpha (a + channelValue e fs 3))

/-- When `mbp`, copy C and A into their parts of the slot WI, ⊥ as ⊥ (43_color.md rule R176). -/
def pushColor (mbp : Bool) : Op Unit :=
  update fun s =>
    if mbp then s.setSlot s.wi { s.slot s.wi with color := s.color, alpha := s.alpha } else s

/-- `COL(mbp)` with `h6 = CUR[5:0]` (43_color.md rule R170). -/
def setColorCommand (h6 : BitVec 6) (mbp : Bool) : Op Unit := do
  update (·.clearUseMc)
  let e ← lookup .color h6
  let fs ← unpack h6 e.tagLength (List.replicate (channelCount (← get).ba) e.fieldLength)
  accumulateColor e fs
  pushColor mbp
  if !(← get).bc then
    let c ← colorOut
    emit (.globalColor c)

/-- A bundled color in a vertex step (45_dispatch_control.md rule R213; 30_encoding.md rule R88): promote the
subheader into CUR, fetch the next header, then `COL(mbp)`. -/
def bundledColor (h6 : BitVec 6) (mbp : Bool) : Op Unit := do
  update (·.setCur (h6.setWidth 8 ||| 0x80#8))
  fetchNext 8
  setColorCommand h6 mbp

/-- COL (45_dispatch_control.md rule R214): a standalone color never pushes. -/
def execCol (h6 : BitVec 6) (s : State) : Host.Outcome State Fault Refusal :=
  runOp (setColorCommand h6 false) s

/-- COL_SUB: the bundled color of a vertex whose push bit is `mbp` (45_dispatch_control.md rule R213). -/
def execColSub (h6 : BitVec 6) (mbp : Bool) (s : State) : Host.Outcome State Fault Refusal :=
  runOp (bundledColor h6 mbp) s

end Sys2Proof.Machine
end

