-- ==== Sys2Proof/Machine/Normal.lean ====
section
/-! DEFINITION. Set normal (42_normal.md rules R140 to R152), on its own and bundled in a vertex. -/

namespace Sys2Proof.Machine

/-- The normal of an absolute entry (42_normal.md rule R142): sextant and octant, then u and v, unsigned. -/
def absoluteNormal (h6 : BitVec 6) (e : Entry) : Op Normal := do
  let fs ← unpack h6 e.tagLength [6, e.fieldLength, e.fieldLength]
  let so := BitVec.ofNat 6 (fieldAt fs 0)
  return { sex := so.extractLsb' 3 3, oct := so.extractLsb' 0 3
           u := unsignedValue e.rightShift (fieldAt fs 1), v := unsignedValue e.rightShift (fieldAt fs 2) }

/-- One correction where the sum has left the domain (42_normal.md rules R144, R148). -/
def correctNormal (n : Normal) : Op Normal :=
  if inDomain n.u n.v then pure n
  else
    match wrapNormal n with
    | some n' => pure n'
    | none => raise .noWrapCase (.uv n.u n.v)

/-- The normal of a relative entry (42_normal.md rule R143): signed deltas added to the current U and V, then at most
one correction (rule R144). -/
def relativeNormal (h6 : BitVec 6) (e : Entry) : Op Normal := do
  let fs ← unpack h6 e.tagLength [e.fieldLength, e.fieldLength]
  let n ← need (← get).normal
  correctNormal { n with u := n.u + signedValue e.fieldLength e.rightShift (fieldAt fs 0)
                         v := n.v + signedValue e.fieldLength e.rightShift (fieldAt fs 1) }

/-- When `mbp`, copy N into its part of the slot WI (42_normal.md rule R151). -/
def pushNormal (mbp : Bool) : Op Unit :=
  update fun s => if mbp then s.setSlot s.wi { s.slot s.wi with normal := s.normal } else s

/-- `NRM(mbp)` with `h6 = CUR[5:0]` (42_normal.md rule R140). -/
def setNormalCommand (h6 : BitVec 6) (mbp : Bool) : Op Unit := do
  update (·.clearUseMn)
  let e ← lookup .normal h6
  let n ← if e.absolute then absoluteNormal h6 e else relativeNormal h6 e
  if !inDomain n.u n.v then raise .outOfDomain (.uv n.u n.v)
  update (·.setNormal n)
  pushNormal mbp
  let s ← get
  if !s.bn then emit (.globalNormal (convert s.params n))

/-- A bundled normal in a vertex step (45_dispatch_control.md rule R213; 30_encoding.md rule R88): promote the
subheader into CUR, fetch the next subheader or header, then `NRM(mbp)`. -/
def bundledNormal (h6 : BitVec 6) (mbp : Bool) : Op Unit := do
  update (·.setCur (h6.setWidth 8 ||| 0xC0#8))
  fetchNext (if (← get).bc then 6 else 8)
  setNormalCommand h6 mbp

/-- NRM (45_dispatch_control.md rule R214): a standalone normal never pushes. -/
def execNrm (h6 : BitVec 6) (s : State) : Host.Outcome State Fault Refusal :=
  runOp (setNormalCommand h6 false) s

/-- NRM_SUB: the bundled normal of a vertex whose push bit is `mbp` (45_dispatch_control.md rule R213). -/
def execNrmSub (h6 : BitVec 6) (mbp : Bool) (s : State) : Host.Outcome State Fault Refusal :=
  runOp (bundledNormal h6 mbp) s

end Sys2Proof.Machine
end

