-- ==== Sys2Proof/Machine/Vertex.lean ====
section
/-! DEFINITION. Vertex: the position part (41_vertex.md rule R120) and the vertex step around it
(45_dispatch_control.md rule R213). -/

namespace Sys2Proof.Machine

/-- Header bits left after the tag and the three position fields, negative where the fields overflow the header
(30_encoding.md rule R80). -/
def spareBits (e : Entry) : Int := 6 - (e.tagLength : Int) - 3 * (e.fieldLength : Int)

/-- The 3-bit quantity `rm`: its first bits are the header's spare bits, where there are any, and the stream gives the
rest before the fields' continuation (30_encoding.md rule R80). -/
def replaceAndPush (h6 : BitVec 6) (e : Entry) : Op (BitVec 3) := do
  let lo := (spareBits e).toNat
  let rest ← getBits (3 - lo)
  return BitVec.ofNat 3 (bitField h6.toNat 0 lo * 2 ^ (3 - lo) + rest)

/-- The value of the `i`-th position field (41_vertex.md rule R124). -/
def axisValue (e : Entry) (fs : List Nat) (i : Nat) : Word16 :=
  wrap16 (signedValue e.fieldLength e.rightShift (fieldAt fs i))

/-- Accumulate the position: an absolute entry replaces P, a relative one adds to it (41_vertex.md rule R125). -/
def accumulatePosition (e : Entry) (fs : List Nat) : Op Unit := do
  let d : Position := ⟨axisValue e fs 0, axisValue e fs 1, axisValue e fs 2⟩
  if e.absolute then update (·.setPos d)
  else
    let p ← need (← get).pos
    update (·.setPos (p.add d))

/-- The state after a position push: WI advances and its slot takes P; the slot's other parts stay (41_vertex.md rule
R126). -/
def State.pushPosition (s : State) : State :=
  let s := s.setWi (s.wi + 1)
  s.setSlot s.wi { s.slot s.wi with pos := s.pos }

/-- `VTX()` with `h6 = CUR[5:0]`: the position part of a vertex, returning the push bit (41_vertex.md rule R120). -/
def vertexPosition (h6 : BitVec 6) : Op Bool := do
  update (·.clearMeshUse)
  let e ← lookup .position h6
  if 3 < spareBits e then raise .positionOverfit .nothing
  let rm ← replaceAndPush h6 e
  update (·.setRep (rm.extractLsb' 1 2))
  let fs ← unpack h6 e.tagLength [e.fieldLength, e.fieldLength, e.fieldLength]
  accumulatePosition e fs
  if rm.getLsbD 0 then update (·.pushPosition)
  return rm.getLsbD 0

/-- The low six bits of NXT: a subheader that has been fetched and not yet promoted (10_state.md rule R22). -/
def State.fetchedSub (s : State) : BitVec 6 := s.nxt.extractLsb' 0 6

/-- `VertexStep()` for the header bits `h6 = CUR[5:0]`: BN and BC decide the order of reads (45_dispatch_control.md
rules R213, R215). -/
def vertexStep (h6 : BitVec 6) : Op Unit := do
  let s ← get
  match s.bn, s.bc with
  | false, false =>
    fetchNext 8
    let _ ← vertexPosition h6
  | true, false =>
    fetchNext 6
    let mbp ← vertexPosition h6
    bundledNormal (← get).fetchedSub mbp
  | false, true =>
    fetchNext 6
    let mbp ← vertexPosition h6
    bundledColor (← get).fetchedSub mbp
  | true, true =>
    fetchNext 6
    let mbp ← vertexPosition h6
    bundledNormal (← get).fetchedSub mbp
    bundledColor (← get).fetchedSub mbp
  emitVertex

/-- VTX: the vertex step, its lookahead fetch included (45_dispatch_control.md rules R212, R213). -/
def execVtx (h6 : BitVec 6) (s : State) : Host.Outcome State Fault Refusal := runOp (vertexStep h6) s

end Sys2Proof.Machine
end

