-- ==== Sys2Proof/Machine/Dispatch.lean ====
section
/-! DEFINITION. One arm per command: `Execute` (45_dispatch_control.md rule R214) and, for the vertex class, the vertex
step (rule R213). -/

namespace Sys2Proof.Machine

def exec (i : Instr) (s : State) : Host.Outcome State Fault Refusal :=
  match i with
  | .nrm h6 => Sys2Proof.Machine.execNrm h6 s
  | .col h6 => Sys2Proof.Machine.execCol h6 s
  | .vtx h6 => Sys2Proof.Machine.execVtx h6 s
  | .mbr k r1 => Sys2Proof.Machine.execMbr k r1 s
  | .sst x bn => Sys2Proof.Machine.execSst x bn s
  | .stb sel a6 => Sys2Proof.Machine.execStb sel a6 s
  | .eos => Sys2Proof.Machine.execEos s
  | .vnop => Sys2Proof.Machine.execVnop s
  | .skip8 => Sys2Proof.Machine.execSkip8 s
  | .pass => Sys2Proof.Machine.execPass s
  | .nrmSub h6 mbp => Sys2Proof.Machine.execNrmSub h6 mbp s
  | .colSub h6 mbp => Sys2Proof.Machine.execColSub h6 mbp s
  | .reserved02 => Sys2Proof.Machine.execReserved02 s
  | .reserved03 => Sys2Proof.Machine.execReserved03 s
  | .reserved04 => Sys2Proof.Machine.execReserved04 s
  | .reserved05 => Sys2Proof.Machine.execReserved05 s
  | .reserved06 => Sys2Proof.Machine.execReserved06 s
  | .reserved09 => Sys2Proof.Machine.execReserved09 s
  | .reserved0A => Sys2Proof.Machine.execReserved0A s
  | .reserved0B => Sys2Proof.Machine.execReserved0B s
  | .reserved0C => Sys2Proof.Machine.execReserved0C s
  | .reserved0D => Sys2Proof.Machine.execReserved0D s
  | .reserved0E => Sys2Proof.Machine.execReserved0E s
  | .reserved0F => Sys2Proof.Machine.execReserved0F s
  | .stbReservedSelect a6 => Sys2Proof.Machine.execStbReservedSelect a6 s

end Sys2Proof.Machine
end

