-- ==== Sys2Proof/Machine/Fetch.lean ====
section
/-! DEFINITION. The fetch of a step: CUR takes NXT, and the lookahead header is read before the body
(45_dispatch_control.md rule R212). -/

namespace Sys2Proof.Machine

/-- Whether a header is of the vertex class, `h[7:6] = 01` (30_encoding.md rule R72). -/
def isVertexHeader (h : Byte) : Bool := decide (h.extractLsb' 6 2 = 1#2)

/-- `CUR <- NXT`, and for every class but the vertex class `NXT <- GetBits(8)`; the vertex step makes its own fetches
(45_dispatch_control.md rules R212, R213). It returns the command of CUR. -/
def fetch : Op Instr := do
  update fun s => s.setCur s.nxt
  let h := (← get).cur
  if !isVertexHeader h then fetchNext 8
  return decodeHeader h

end Sys2Proof.Machine
end

