-- ==== Sys2Proof/Machine/Request.lean ====
section
/-! DEFINITION. The host's side: a new instance, the decode start with its pre-checks and reset, and the host's calls
(45_dispatch_control.md rules R210, R227, 70_reset_and_hazards.md rule R280, 60_exceptions.md rule R259). -/

namespace Sys2Proof.Machine

/-- A register that nothing has written: ⊥, or zero under `UNWRITTEN_READ = zero` (10_state.md rule R37). -/
def unwritten {α : Type} (params : Params) (zero : α) : Option α :=
  match params.unwrittenRead with
  | .fault => none
  | .zero => some zero

/-- A vertex cache slot at decode start (10_state.md rule R37). -/
def unwrittenSlot (params : Params) : Slot :=
  { pos := unwritten params ⟨0, 0, 0⟩, normal := unwritten params ⟨0, 0, 0, 0⟩
    color := unwritten params ⟨0, 0, 0⟩, alpha := unwritten params 0 }

/-- Every register at its reset value (10_state.md rule R37); the request, the buffer, the ROM and the delivered events
stay. -/
def State.resetRegisters (s : State) : State :=
  { s with
    p := s.start, w := 0#32, c := 0
    cur := 0x00#8, nxt := 0x01#8
    posTable := Vector.replicate 64 none
    colTable := Vector.replicate 64 none
    nrmTable := Vector.replicate 64 none
    pos := unwritten s.params ⟨0, 0, 0⟩, color := unwritten s.params ⟨0, 0, 0⟩
    alpha := unwritten s.params 0, normal := unwritten s.params ⟨0, 0, 0, 0⟩
    bn := false, bc := false, ba := false, useMn := false, useMc := false
    rep := 0#2, wi := 15#4
    vc := Vector.replicate 16 (unwrittenSlot s.params)
    status := .run }

/-- `VersionOK(vmaj, vmin, vminmin)`; the last component is not compared (45_dispatch_control.md rule R227). -/
def versionOk (params : Params) (vmaj vmin _vminmin : Nat) : Bool :=
  decide (vmaj < params.supportedMajor) ||
    (decide (vmaj = params.supportedMajor) && decide (vmin ≤ params.supportedMinor))

/-- An error of a pre-check: its record has bitpos 0 and header 0x00 (45_dispatch_control.md rule R210;
60_exceptions.md rule R253). -/
def enterPrecheck (reason : Reason) (info : Info) (s : State) : State :=
  stopWith ⟨reason.code, reason, info, 0, 0x00#8⟩ s

/-- The byte array a Decode call passes: a new one, or the host's as it stands, with every write made since (20_memory.md
rule R64; log entry 30). -/
def State.supplyArray (s : State) (array : Option (List Byte)) : State :=
  { s with hostBuf := array.elim s.hostBuf Memory.ofBytes, hostSize := array.elim s.hostSize List.length }

/-- Latch the request of a decode: the host's byte array and its size, S, L_BYTES and the declared version (10_state.md
rule R36). BUF is constant from then on: a host write changes the host's array only (DESIGN CHOICE, log entry 30). -/
def State.latchRequest (s : State) (start len vmaj vmin vminmin : Nat) : State :=
  { s with buf := s.hostBuf, size := s.hostSize, start := start, len := len, vmaj := vmaj, vmin := vmin, vminmin := vminmin }

/-- `Decode(BUF, S, L_BYTES, ver)` on the host's array, up to its loop (45_dispatch_control.md rule R210): the bounds
check, the version check, then the reset. -/
def decodeStart (start len vmaj vmin vminmin : Nat) (s : State) : State :=
  if s.hostSize < start + len then enterPrecheck .precheck (.endAddress (start + len)) s
  else if !versionOk s.params vmaj vmin vminmin then
    enterPrecheck .version (.declared vmaj vmin vminmin) s
  else (s.latchRequest start len vmaj vmin vminmin).resetRegisters

/-- A host write of one byte of its array: refused inside BUF[S..E-1] while a decode runs (20_memory.md rule R62;
60_exceptions.md rule R259). It never changes the latched BUF (10_state.md rule R36; log entry 27). -/
def hostWrite (address : Nat) (value : Byte) (s : State) : Host.Outcome State Fault Refusal :=
  if s.status = .run ∧ s.start ≤ address ∧ address < s.endAddr then .refused .bufferChangedWhileRunning
  else if s.hostSize ≤ address then .fault (.noSuchByte address)
  else .next { s with hostBuf := s.hostBuf.write address value }

/-- Take the host's call. A Decode call while a decode runs is refused (60_exceptions.md rule R259). -/
def takeCall (call : HostCall) (s : State) : Host.Outcome State Fault Refusal :=
  match call with
  | .decode array start len vmaj vmin vminmin =>
    if s.status = .run then .refused .decodeWhileRunning
    else .next (decodeStart start len vmaj vmin vminmin ((s.setCall none).supplyArray array))
  | .writeBuffer address value => hostWrite address value (s.setCall none)

/-- STATUS of an instance that waits for a call: between decodes it is IDLE (60_exceptions.md rule R266), so DONE, the
result of a normal end, becomes IDLE once that state has been reported; an ERROR stays until the next Decode call (decision
D22; log entry 20). A decode that runs is not between decodes. -/
def Status.betweenDecodes : Status → Status
  | .done => .idle
  | .idle => .idle
  | .run => .run
  | .error e => .error e

/-- An instance that is not running and has no call pending waits: only STATUS may change (60_exceptions.md rules R255,
R266). -/
def State.await (s : State) : State := s.setStatus s.status.betweenDecodes

/-- A new instance (70_reset_and_hazards.md rule R280): STATUS is IDLE, the ROM is built, no event has been sent, and
every other register is unspecified (10_state.md rule R37; log entry 3). The host has passed no array yet: that BUF and the
host's array are then empty, of size 0, so that a host write faults, is the model's choice (DESIGN CHOICE, log entry 31). -/
def State.construct (params : Params) : State :=
  { Config.unspecified 0 with
    buf := [], size := 0, params := params, status := .idle, events := [], call := none, hostBuf := [], hostSize := 0
    unspecifiedCount := 1 }

end Sys2Proof.Machine
end

