-- ==== Sys2Proof/Machine/Step.lean ====
section
/-! DEFINITION. One step of the machine: the host's call if there is one; else, while a decode runs, one iteration of
the dispatcher's loop (45_dispatch_control.md rules R211, R212), or its end where no bits remain (log entry 5). An
instance that is not running waits for a call, IDLE after a normal end (60_exceptions.md rule R266; log entries 2 and
20). -/

namespace Sys2Proof.Machine

/-- One dispatcher iteration (45_dispatch_control.md rule R212). -/
def dispatch (s : State) : Host.Outcome State Fault Refusal :=
  match fetch s with
  | .ok i s' => exec i s'
  | .error e s' => stopped e s'

/-- One step. -/
def step (s : State) : Host.Outcome State Fault Refusal :=
  match s.call with
  | some call => takeCall call s
  | none =>
    match s.status with
    | .run => if s.moreBits then dispatch s else .next (s.setStatus .done)
    | .idle | .done | .error _ => .next s.await

/-- How many bytes of zeros `withFetchWord` puts behind the header: more than the longest command needs
(30_encoding.md rule R90). -/
def fetchWordBytes : Nat := 64

/-- `s` about to execute the command of the bits `w` (log entry 9): NXT holds its header, a decode runs at the start of
a buffer of zero bytes, so that every bit that follows is 0, and no host call is pending. -/
def State.withFetchWord (s : State) (_nbits w : Nat) : State :=
  { s with
    nxt := BitVec.ofNat 8 w
    buf := [], size := fetchWordBytes, start := 0, len := fetchWordBytes
    p := 0, w := 0#32, c := 0
    status := .run, call := none }

end Sys2Proof.Machine
end

