-- ==== Sys2Proof/Safety.lean ====
section
/-! DEFINITION. The terms that statements about the machine use: the unread stream as the rules describe it, apart from
how the extractor computes it; what a command's fields are in that stream; the states the machine reaches as an
invariant; the value of a binary32 word; and what a vertex emission adds. -/

namespace Sys2Proof.Machine

/-! The unread stream (20_memory.md rules R56, R57). -/

/-- The `i`-th unread stream bit: first the window's unread bits, then the bytes from the cursor on, bit 7 first. -/
def bitAt (s : State) (i : Nat) : Bool :=
  if i < s.c then s.w.getMsbD i
  else (s.buf.read (s.p + (i - s.c) / 8)).getMsbD ((i - s.c) % 8)

/-- The `n` unread stream bits from the `i`-th on, as a number, first bit most significant. -/
def peek (s : State) (i n : Nat) : Nat := ofBits ((List.range n).map fun k => bitAt s (i + k))

/-- The unread stream begins, from its `i`-th bit on, with the bits `bs`. -/
abbrev Follows (s : State) (i : Nat) (bs : List Bool) : Prop :=
  (List.range bs.length).map (fun k => bitAt s (i + k)) = bs

/-- The big-endian word of the four bytes at `a` (20_memory.md rule R53). -/
def wordAt (m : Memory) (a : Nat) : Window :=
  m.read a ++ m.read (a + 1) ++ m.read (a + 2) ++ m.read (a + 3)

/-- The state after `n` more stream bits were taken: where the window still holds them it shifts; else as many words
are loaded as the bits need, and the last one keeps its unread bits (20_memory.md rules R53, R55). -/
def consume (s : State) (n : Nat) : State :=
  if n ≤ s.c then s.setBfx s.p (s.w <<< n) (s.c - n)
  else
    let words := (n - s.c + 31) / 32
    let used := (n - s.c) - 32 * (words - 1)
    s.setBfx (s.p + 4 * words) (wordAt s.buf (s.p + 4 * (words - 1)) <<< used) (32 - used)

/-- The next `n` stream bits can be taken: the window and the whole words before E hold them, and E lies in the
buffer. -/
abbrev Readable (s : State) (n : Nat) : Prop :=
  s.c ≤ 32 ∧ s.endAddr ≤ s.size ∧ n ≤ s.c + 32 * ((s.endAddr - s.p) / 4)

/-- How many stream bits lie between the next unread bit and E. -/
def bitsBeforeEnd (s : State) : Nat := s.c + 8 * (s.endAddr - s.p)

/-! Fields (30_encoding.md rules R74, R75, R78, R80). -/

/-- The `i`-th bit of the header's `avail` data bits followed by the stream from its bit `from'` on. -/
def dataBitAt (s : State) (h6 : BitVec 6) (avail from' i : Nat) : Bool :=
  if i < avail then h6.getLsbD (avail - 1 - i) else bitAt s (from' + (i - avail))

/-- The `w` bits from the `i`-th on of that string, as a number. -/
def dataField (s : State) (h6 : BitVec 6) (avail from' i w : Nat) : Nat :=
  ofBits ((List.range w).map fun k => dataBitAt s h6 avail from' (i + k))

/-- Consecutive fields of the widths `ws` from the `i`-th bit on. -/
def dataFields (s : State) (h6 : BitVec 6) (avail from' : Nat) : Nat → List Nat → List Nat
  | _, [] => []
  | i, w :: ws => dataField s h6 avail from' i w :: dataFields s h6 avail from' (i + w) ws

/-- A signed `L`-bit field, extended to 16 bits and shifted left by `rs`. -/
def signed16 (L rs f : Nat) : Word16 := (BitVec.ofNat L f).signExtend 16 <<< rs

/-- A signed `L`-bit field, shifted left by `rs`, as an integer. -/
def signedInt (L rs f : Nat) : Int := (BitVec.ofNat L f).toInt * 2 ^ rs

/-- The fields an entry may hold (10_state.md rule R23). -/
def Entry.legal (k : TableId) (e : Entry) : Bool :=
  decide (e.tagLength ≤ 6) && decide (e.rightShift ≤ 15) &&
    match k with
    | .normal => decide (e.dataLength ≤ 15)
    | .position | .color => decide (1 ≤ e.dataLength) && decide (e.dataLength ≤ 16)

/-- The header bits `h6` select an entry of the table `k` that a command can use: legal, with a field length that is
not negative (30_encoding.md rule R79). -/
abbrev Selects (s : State) (k : TableId) (h6 : BitVec 6) (e : Entry) : Prop :=
  s.entryAt k h6 = some e ∧ e.legal k = true ∧ e.rightShift ≤ e.dataLength

/-! Requests to the extractor. -/

/-- The widths that `Unpack` requests from the stream, where `avail` header bits are left: nothing for a field the header
holds, the rest of the field that leaves the header, then whole fields (30_encoding.md rule R75). -/
def streamWidths : Nat → List Nat → List Nat
  | _, [] => []
  | avail, w :: ws => if w ≤ avail then streamWidths (avail - w) ws else (w - avail) :: streamWidths 0 ws

/-- The requests of a body whose widths the selected entry fixes; none where the lookup raises its own error first. -/
def entryWidths (s : State) (k : TableId) (h6 : BitVec 6) (widths : Entry → List Nat) : List Nat :=
  match s.entryAt k h6 with
  | some e => if e.legal k && decide (e.rightShift ≤ e.dataLength) then widths e else []
  | none => []

/-- The requests of a vertex's position part: what the header does not hold of the replace code and push bit, then the
fields (30_encoding.md rule R80); none where the fields leave more than 3 header bits (rule R81). -/
def vertexWidths (e : Entry) : List Nat :=
  if e.tagLength + 3 * e.fieldLength < 3 then []
  else (3 - (6 - (e.tagLength + 3 * e.fieldLength))) ::
    streamWidths (6 - e.tagLength) [e.fieldLength, e.fieldLength, e.fieldLength]

/-- The requests of a normal's body (30_encoding.md rule R82). -/
def normalWidths (e : Entry) : List Nat :=
  streamWidths (6 - e.tagLength)
    (if e.absolute then [6, e.fieldLength, e.fieldLength] else [e.fieldLength, e.fieldLength])

/-- The requests of a color's body (30_encoding.md rule R83; 43_color.md rule R173). -/
def colorWidths (ba : Bool) (e : Entry) : List Nat :=
  streamWidths (6 - e.tagLength) (List.replicate (if ba then 4 else 3) e.fieldLength)

/-- The widths of the `GetBits` requests a command makes, in order: a vertex and a bundled part fetch a lookahead first
(45_dispatch_control.md rule R213), the others only read their body (30_encoding.md rules R82 to R89). Of a vertex with
bundled parts these are the requests up to the end of its position; the parts are NRM_SUB and COL_SUB. -/
def requests (s : State) : Instr → List Nat
  | .nrm h6 => entryWidths s .normal h6 normalWidths
  | .col h6 => entryWidths s .color h6 (colorWidths s.ba)
  | .vtx h6 => (if s.bn || s.bc then 6 else 8) :: entryWidths s .position h6 vertexWidths
  | .nrmSub h6 _ => (if s.bc then 6 else 8) :: entryWidths s .normal h6 normalWidths
  | .colSub h6 _ => 8 :: entryWidths s .color h6 (colorWidths s.ba)
  | .mbr _ _ => [1]
  | .sst _ _ => [3]
  | .stb sel _ => if sel = 3#2 then [] else [15]
  | .vnop => [5, peek s 0 5]
  | .skip8 => [8]
  | .pass => [24, 32]
  | .eos => []
  | .reserved02 | .reserved03 | .reserved04 | .reserved05 | .reserved06 | .reserved09 => []
  | .reserved0A | .reserved0B | .reserved0C | .reserved0D | .reserved0E | .reserved0F => []
  | .stbReservedSelect _ => []

/-- CUR while a command reads: a bundled part has promoted its subheader (30_encoding.md rule R88). -/
def headerDuring (s : State) : Instr → Byte
  | .nrmSub h6 _ => 3#2 ++ h6
  | .colSub h6 _ => 2#2 ++ h6
  | .nrm _ | .col _ | .vtx _ | .mbr _ _ | .sst _ _ | .stb _ _ => s.cur
  | .eos | .vnop | .skip8 | .pass => s.cur
  | .reserved02 | .reserved03 | .reserved04 | .reserved05 | .reserved06 | .reserved09 => s.cur
  | .reserved0A | .reserved0B | .reserved0C | .reserved0D | .reserved0E | .reserved0F => s.cur
  | .stbReservedSelect _ => s.cur

/-- After `taken` bits, which can be taken, the window holds fewer than `n`, and the next word passes E (20_memory.md rule
R53). -/
abbrev RunsDry (s : State) (taken n : Nat) : Prop :=
  Readable s taken ∧ (consume s taken).c < n ∧ s.endAddr < (consume s taken).p + 4

/-! Results of the commands. -/

/-- The replace code and push bit of a vertex whose body begins at stream bit `from'` (30_encoding.md rule R80). -/
def vertexRm (s : State) (h6 : BitVec 6) (e : Entry) (from' : Nat) : BitVec 3 :=
  if e.tagLength + 3 * e.fieldLength < 6 then
    BitVec.ofNat 3 (dataField s h6 (6 - e.tagLength) from' (3 * e.fieldLength) 3)
  else BitVec.ofNat 3 (peek s from' 3)

/-- The `j`-th axis value of a vertex whose body begins at stream bit `from'`: where the fields leave the header, they
continue after the 3 bits of `rm` (30_encoding.md rules R78, R80). -/
def vertexAxis (s : State) (h6 : BitVec 6) (e : Entry) (from' j : Nat) : Word16 :=
  signed16 e.fieldLength e.rightShift
    (dataField s h6 (6 - e.tagLength) (from' + 3) (j * e.fieldLength) e.fieldLength)

/-- P after a vertex whose body begins at stream bit `from'`, with `p0` before it (41_vertex.md rule R125). -/
def vertexPos (s : State) (h6 : BitVec 6) (e : Entry) (from' : Nat) (p0 : Position) : Position :=
  let d : Position :=
    ⟨vertexAxis s h6 e from' 0, vertexAxis s h6 e from' 1, vertexAxis s h6 e from' 2⟩
  if e.absolute then d else ⟨p0.x + d.x, p0.y + d.y, p0.z + d.z⟩

/-- The state after a lookahead fetch of `w` bits and the position part of a vertex (41_vertex.md rule R120): the body
has `t + 3 L - 3` bits (30_encoding.md rule R80). -/
def positioned (s : State) (h6 : BitVec 6) (e : Entry) (w : Nat) (p0 : Position) : State :=
  let rm := vertexRm s h6 e w
  let p := vertexPos s h6 e w p0
  let push := rm.getLsbD 0
  { consume s (w + (e.tagLength + 3 * e.fieldLength - 3)) with
    nxt := BitVec.ofNat 8 (peek s 0 w)
    useMn := false, useMc := false
    rep := rm.extractLsb' 1 2
    pos := some p
    wi := if push then s.wi + 1 else s.wi
    vc := if push then
        s.vc.set (s.wi + 1).toNat { s.slot (s.wi + 1) with pos := some p } (by have := (s.wi + 1).isLt; omega)
      else s.vc }

/-- A vertex can be emitted with the position `p`, the normal `n`, the color `c` and the alpha `a`, as far as BN, BC
and BA ask for them (45_dispatch_control.md rule R216). -/
abbrev Emits (s : State) (p : Position) (n : Normal) (c : Color) (a : Word16) : Prop :=
  s.pos = some p ∧ (s.bn = true → s.normal = some n) ∧ (s.bc = true → s.color = some c) ∧
    (s.bc = true ∧ s.ba = true → s.alpha = some a)

/-- The color the sink gets (43_color.md rule R178). -/
def colorValue (s : State) (c : Color) (a : Word16) : ColorValue :=
  ⟨fx c.r, fx c.g, fx c.b, if s.ba then some (fx a) else none⟩

/-- The state after the emission of a vertex (45_dispatch_control.md rules R216, R217). -/
def emitted (s : State) (p : Position) (n : Normal) (c : Color) (a : Word16) : State :=
  { s with
    events := s.events ++
      [.vertex ⟨fx p.x, fx p.y, fx p.z⟩ (if s.bn then some (convert s.params n) else none)
        (if s.bc then some (colorValue s c a) else none) s.rep]
    useMn := true, useMc := true }

/-- The state after a normal command that ends with the normal `n` and whose body ended at stream bit `taken`
(42_normal.md rules R140, R151, R152). -/
def normalSet (s : State) (mbp : Bool) (taken : Nat) (n : Normal) : State :=
  { consume s taken with
    useMn := false
    normal := some n
    vc := if mbp then s.vc.set s.wi.toNat { s.slot s.wi with normal := some n } (by have := s.wi.isLt; omega) else s.vc
    events := if s.bn then s.events else s.events ++ [.globalNormal (convert s.params n)] }

/-- The state in which a bundled attribute of the class `cls` reads its body: the subheader is promoted into CUR, and
the next fetch of `w` bits is made (30_encoding.md rule R88, 45_dispatch_control.md rule R213). -/
def promoted (s : State) (cls : BitVec 2) (h6 : BitVec 6) (w : Nat) : State :=
  { consume s w with cur := cls ++ h6, nxt := BitVec.ofNat 8 (peek s 0 w) }

/-- The `j`-th channel value of a color whose body begins at stream bit `from'` (43_color.md rules R172, R174). -/
def channelAt (s : State) (h6 : BitVec 6) (e : Entry) (from' j : Nat) : Word16 :=
  signed16 e.fieldLength e.rightShift
    (dataField s h6 (6 - e.tagLength) from' (j * e.fieldLength) e.fieldLength)

/-- C after a color command whose body begins at stream bit `from'`, with `c0` before it (43_color.md rule R175). -/
def colorAfter (s : State) (h6 : BitVec 6) (e : Entry) (from' : Nat) (c0 : Color) : Color :=
  let d : Color := ⟨channelAt s h6 e from' 0, channelAt s h6 e from' 1, channelAt s h6 e from' 2⟩
  if e.absolute then d else ⟨c0.r + d.r, c0.g + d.g, c0.b + d.b⟩

/-- A after a color command with BA = 1, with `a0` before it (43_color.md rule R175). -/
def alphaAfter (s : State) (h6 : BitVec 6) (e : Entry) (from' : Nat) (a0 : Word16) : Word16 :=
  if e.absolute then channelAt s h6 e from' 3 else a0 + channelAt s h6 e from' 3

/-- The state after a color command that ends with the color `c` and, when BA = 1, the alpha `a`, and whose body ended
at stream bit `taken` (43_color.md rules R170, R175 to R177). -/
def colorSet (s : State) (mbp : Bool) (taken : Nat) (c : Color) (a : Word16) : State :=
  let alpha := if s.ba then some a else s.alpha
  { consume s taken with
    useMc := false
    color := some c
    alpha := alpha
    vc := if mbp then
        s.vc.set s.wi.toNat { s.slot s.wi with color := some c, alpha := alpha } (by have := s.wi.isLt; omega)
      else s.vc
    events := if s.bc then s.events else s.events ++ [.globalColor (colorValue s c a)] }

/-! The states the machine reaches. -/

/-- The extractor's registers (10_state.md rule R21; 20_memory.md rules R51, R54): the cursor stands at S + 4k before
E, E lies in the buffer, and the window's low 32 - c bits are 0. -/
abbrev BfxSound (s : State) : Prop :=
  s.start ≤ s.p ∧ s.p ≤ s.endAddr ∧ s.endAddr ≤ s.size ∧ (s.p - s.start) % 4 = 0 ∧
    s.c ≤ 32 ∧ s.c ≤ 8 * (s.p - s.start) ∧ s.w <<< s.c = 0#32

/-- Every entry of the table is INVALID or legal (10_state.md rule R23). -/
abbrev TableSound (k : TableId) (t : Table) : Prop := ∀ i : Fin 64, (t[i]).all (Entry.legal k) = true

/-- A normal that is there lies in the triangle (42_normal.md rule R149). -/
def normalSound (n : Option Normal) : Bool := n.all fun n => inDomain n.u n.v

/-- N and every cached normal lie in the triangle. -/
abbrev NormalsSound (s : State) : Prop :=
  normalSound s.normal = true ∧ ∀ j : Fin 16, normalSound (s.vc[j]).normal = true

/-- Under `UNWRITTEN_READ = zero` nothing is ever ⊥ (10_state.md rule R38). -/
def Slot.defined (x : Slot) : Bool :=
  x.pos.isSome && x.normal.isSome && x.color.isSome && x.alpha.isSome

/-- No accumulator and no cache part holds ⊥. -/
abbrev AllDefined (s : State) : Prop :=
  s.pos.isSome = true ∧ s.color.isSome = true ∧ s.alpha.isSome = true ∧ s.normal.isSome = true ∧
    ∀ j : Fin 16, (s.vc[j]).defined = true

/-- What holds of the registers while a decode runs and at its normal end. -/
abbrev RegistersSound (s : State) : Prop :=
  BfxSound s ∧ TableSound .position s.posTable ∧ TableSound .color s.colTable ∧ TableSound .normal s.nrmTable ∧
    NormalsSound s ∧ (s.params.unwrittenRead = .zero → AllDefined s)

/-- The invariant of the machine: BUF and the host's array are canonical, and the registers sound. After an error nothing is said of the registers (60_exceptions.md rule R254). -/
abbrev Sound (s : State) : Prop :=
  Memory.wf s.size s.buf = true ∧ Memory.wf s.hostSize s.hostBuf = true ∧
    (s.status = .run ∨ s.status = .done → RegistersSound s)

/-- STATUS holds an error. -/
def Status.isError : Status → Bool
  | .error _ => true
  | .idle | .run | .done => false

/-! The value of a binary32 word. -/

/-- The rational a finite binary32 word stands for: sign, exponent and fraction (00_scope.md rule R11). -/
def value32 (f : F32) : ℚ :=
  let sign : ℚ := if f.getLsbD 31 then -1 else 1
  let ex := (f.extractLsb' 23 8).toNat
  let frac := (f.extractLsb' 0 23).toNat
  if ex = 0 then sign * frac / 2 ^ 149 else sign * (2 ^ 23 + frac) * 2 ^ ex / 2 ^ 150

end Sys2Proof.Machine
end

