-- ==== Sys2Proof/Certificates/Slice0/Obligations.lean ====
section
/-! DEFINITION. The statements about the CGD, in the terms of Safety.lean. Each docstring names the rules of spec/ it
rests on. -/

open Sys2Proof Sys2Proof.Machine

/-! The bit-field extractor and the fields. -/

/-- 20_memory.md rule R55: `GetBits(n)` returns the next `n` bits of the big-endian stream, across refills, and leaves
the state that has taken exactly those bits, with a refill only where the window is empty. The second clause is rule
R53: where the word it needs passes E, the refill's error is raised. The cited rules hold what the spec marks as its
own: decision D3, the bound E of rule R53, and derivations (log entry 1). -/
def Obligations.GetBitsReadsNextBits : Prop :=
  ∀ (s : State) (n : Nat), n ≤ 32 →
    (Readable s n → getBits n s = .ok (peek s 0 n) (consume s n)) ∧
      (s.c < n → s.endAddr < s.p + 4 → getBits n s = .error (.raise .refillPastEnd (.cursor s.p)) s)

/-- 20_memory.md rule R56: from the start of a stream, the values that any sequence of requests returns, each written
with its width, are the bytes from S on, bit 7 first. The last clause, that the stream offset 8(p - S) - c is the
number of bits taken, is what rule R56 marks as its own: a derivation from rules R53 and R55, of which R53 holds decision D3
(log entry 1). -/
def Obligations.SequentialReadsReproduceTheBytes : Prop :=
  ∀ (s : State) (ns : List Nat), s.p = s.start → s.c = 0 → (∀ n ∈ ns, n ≤ 32) → Readable s ns.sum →
    ∃ (vs : List Nat) (t : State), ns.mapM getBits s = .ok vs t ∧ vs.length = ns.length ∧
      (ns.zip vs).flatMap (fun nv => bitsOf nv.1 nv.2) =
        (List.range ns.sum).map (fun i => (s.buf.read (s.start + i / 8)).getMsbD (i % 8)) ∧
      t.bitpos = ns.sum

/-- 30_encoding.md rule R75: `Unpack` returns consecutive fields of the header's data bits continued by the stream, and
takes from the stream just the bits the header does not hold. The cited rules hold what the spec marks as its own:
general knowledge and derivations (log entry 1). -/
def Obligations.UnpackReadsConsecutiveFields : Prop :=
  ∀ (s : State) (h6 : BitVec 6) (t : Nat) (ws : List Nat), t ≤ 6 → (∀ w ∈ ws, w ≤ 32) →
    Readable s (ws.sum - (6 - t)) →
      unpack h6 t ws s = .ok (dataFields s h6 (6 - t) 0 0 ws) (consume s (ws.sum - (6 - t)))

/-- 30_encoding.md rules R73 to R75: fields packed after a tag by the encoder are read back by `Unpack`, which takes
exactly the body the encoder made. The cited rules hold what the spec marks as its own: general knowledge and
derivations (log entry 1). -/
def Obligations.PackedFieldsUnpack : Prop :=
  ∀ (s : State) (t tag : Nat) (fields : List (Nat × Nat)), t ≤ 6 → tag < 2 ^ t →
    (∀ f ∈ fields, f.1 ≤ 32 ∧ f.2 < 2 ^ f.1) →
    Readable s (encodeFields t tag fields).body.length →
    Follows s 0 (encodeFields t tag fields).body →
      unpack (encodeFields t tag fields).h6 t (fields.map Prod.fst) s =
        .ok (fields.map Prod.snd) (consume s (encodeFields t tag fields).body.length)

/-- 30_encoding.md rule R80, 41_vertex.md rules R120 to R126: a vertex that the encoder packed, with position fields
`x`, `y`, `z` and the quantity `rm`, executes to those coordinates, that replace code and that push. The cited rules
hold what the spec marks as its own: decision D12, general knowledge and derivations (log entry 1). -/
def Obligations.PackedVertexExecutes : Prop :=
  ∀ (s : State) (e : Entry) (tag x y z rm : Nat), tag < 2 ^ e.tagLength →
    x < 2 ^ e.fieldLength → y < 2 ^ e.fieldLength → z < 2 ^ e.fieldLength → rm < 8 →
    3 ≤ e.tagLength + 3 * e.fieldLength →
    let packed := encodeVertex e.tagLength tag e.fieldLength x y z rm
    Selects s .position packed.h6 e → e.absolute = true → s.bn = false → s.bc = false →
    Readable s (8 + packed.body.length) → Follows s 8 packed.body →
      ∃ t, exec (.vtx packed.h6) s = .next t ∧
        t.pos = some ⟨signed16 e.fieldLength e.rightShift x, signed16 e.fieldLength e.rightShift y,
          signed16 e.fieldLength e.rightShift z⟩ ∧
        t.rep = BitVec.ofNat 2 (rm / 2) ∧
        t.wi = (if rm % 2 = 1 then s.wi + 1 else s.wi) ∧
        t.bitpos = s.bitpos + 8 + packed.body.length

/-! Headers. -/

/-- 30_encoding.md rules R72, R80 to R89: decoding the header of a command gives the command back, and every header is
the header of the command it decodes to. The cited rules hold what the spec marks as its own: decisions D5, D33,
general knowledge and derivations (log entry 1). -/
def Obligations.HeadersDecodeAndEncode : Prop :=
  (∀ i : Instr, i.wellFormed = true → headerWidth i = 8 → decodeHeader (encode i) = i) ∧
    (∀ h : Byte, encode (decodeHeader h) = h ∧ (decodeHeader h).wellFormed = true) ∧
    (∀ (sub : BitVec 6) (mbp : Bool),
      (encode (decodeNormalSub sub mbp)).setWidth 6 = sub ∧ (encode (decodeColorSub sub mbp)).setWidth 6 = sub)

/-- 30_encoding.md rules R80, R82, R85 to R87 (the worked examples) and R72, R84, R89: some headers written out bit by
bit. The cited rules hold what the spec marks as its own: decisions D5, D33, general knowledge and derivations (log
entry 1). -/
def Obligations.WrittenHeadersDecode : Prop :=
  decodeHeader 0b01100011#8 = .vtx 0b100011#6 ∧ decodeHeader 0b11110010#8 = .nrm 0b110010#6 ∧
    decodeHeader 0b10101111#8 = .col 0b101111#6 ∧ decodeHeader 0b00100011#8 = .mbr 1#4 true ∧
    decodeHeader 0b00011001#8 = .sst 0#2 true ∧ decodeHeader 0b00010000#8 = .stb 0#2 false ∧
    decodeHeader 0b00010111#8 = .stbReservedSelect true ∧ decodeHeader 0b00000000#8 = .eos ∧
    decodeHeader 0b00000001#8 = .vnop ∧ decodeHeader 0b00000111#8 = .skip8 ∧
    decodeHeader 0b00001000#8 = .pass ∧ decodeHeader 0b00000101#8 = .reserved05

/-! The step. -/

/-- 45_dispatch_control.md rules R212, R213: a step executes the command whose header is in NXT. A vertex header is
executed at once; for any other the next header is fetched first. The cited rules hold what the spec marks as its own:
decision D1 and general knowledge (log entry 1). -/
def Obligations.StepRunsDecodedCommand : Prop :=
  ∀ s : State, s.call = none → s.status = .run → s.moreBits = true →
    (s.nxt.extractLsb' 6 2 = 1#2 → step s = exec (decodeHeader s.nxt) { s with cur := s.nxt }) ∧
      (s.nxt.extractLsb' 6 2 ≠ 1#2 → Readable s 8 →
        step s = exec (decodeHeader s.nxt)
          { consume s 8 with cur := s.nxt, nxt := BitVec.ofNat 8 (peek s 0 8) })

/-- 45_dispatch_control.md rules R212, R213, 60_exceptions.md rules R252, R256: a lookahead fetch past E raises
REFILL_PAST_END before the body is read: the 8-bit fetch of a step whose header is no vertex, with CUR already loaded;
the 6-bit or 8-bit fetch of a vertex, as a step and as a command; and the second fetch of a vertex with bundled parts,
after the promotion into CUR. What the state after an error holds beside STATUS and the events is the model's choice
(log entry 3). The cited rules hold what the spec marks as its own: decisions D1, D3, D16, general knowledge and
derivations (log entry 1). -/
def Obligations.LookaheadPastEndRaises : Prop :=
  ∀ s : State, s.endAddr < s.p + 4 →
    let w := if s.bn = true ∨ s.bc = true then 6 else 8
    (s.call = none → s.status = .run → s.moreBits = true →
      (s.nxt.extractLsb' 6 2 ≠ 1#2 → s.c < 8 →
        step s = .next (enterError .refillPastEnd (.cursor s.p) { s with cur := s.nxt })) ∧
      (s.nxt.extractLsb' 6 2 = 1#2 → s.c < w →
        step s = .next (enterError .refillPastEnd (.cursor s.p) { s with cur := s.nxt }))) ∧
    (∀ h6 : BitVec 6, s.c < w → exec (.vtx h6) s = .next (enterError .refillPastEnd (.cursor s.p) s)) ∧
    (∀ (h6 : BitVec 6) (mbp : Bool), s.c < (if s.bc then 6 else 8) →
      exec (.nrmSub h6 mbp) s = .next (enterError .refillPastEnd (.cursor s.p) { s with cur := 3#2 ++ h6 })) ∧
    (∀ (h6 : BitVec 6) (mbp : Bool), s.c < 8 →
      exec (.colSub h6 mbp) s = .next (enterError .refillPastEnd (.cursor s.p) { s with cur := 2#2 ++ h6 }))

/-- 45_dispatch_control.md rule R211, 60_exceptions.md rules R253, R255, R266: where no bits remain, STATUS becomes DONE and
nothing else changes; after that the instance is IDLE, and after an error it stays as it is; nothing runs until the host
calls. That the end of the loop is a step of its own, that the change from DONE to IDLE is one, and that an idle or failed
machine answers the same state, are the model's (log entries 5, 20 and 2). The cited rules hold what the spec marks as its
own: decisions D2, D22, D25, D29 and derivations (log entry 1). -/
def Obligations.ExhaustedOrStoppedDecodeRunsNothing : Prop :=
  ∀ s : State, s.call = none →
    (s.status = .run → s.endAddr ≤ s.p → s.c = 0 → step s = .next { s with status := .done }) ∧
      (s.status = .done → step s = .next { s with status := .idle }) ∧
      (s.status = .idle ∨ s.status.isError = true → step s = .next s)

/-- 60_exceptions.md rules R250, R251, R253: what an error records, with the code of its reason's kind. An error of one of
the nine reasons that a step raises records the stream offset and CUR at that moment; one of the two reasons of the
pre-checks (45_dispatch_control.md rule R210) records bitpos 0 and header 0x00. The events already sent stay. The cited rules
hold what the spec marks as its own: decisions D2, D5, D6, D7, D8, D9, D16 and derivations (log entry 1). -/
def Obligations.ErrorEntryRecords : Prop :=
  let raised : List (Reason × Nat) :=
    [(.refillPastEnd, 1), (.reservedOpcode, 3), (.reservedTable, 3), (.unsetTableEntry, 3), (.negativeLength, 3),
      (.positionOverfit, 3), (.undefinedRead, 3), (.noWrapCase, 4), (.outOfDomain, 4)]
  let prechecks : List (Reason × Nat) := [(.precheck, 1), (.version, 2)]
  (∀ r : Reason, ∃ code, (r, code) ∈ raised ++ prechecks) ∧
    (∀ (s : State) (r : Reason) (i : Info) (code : Nat), (r, code) ∈ raised →
      (enterError r i s).status = .error ⟨code, r, i, 8 * ((s.p : Int) - s.start) - s.c, s.cur⟩ ∧
        (enterError r i s).events = s.events) ∧
    (∀ (s : State) (r : Reason) (i : Info) (code : Nat), (r, code) ∈ prechecks →
      (enterPrecheck r i s).status = .error ⟨code, r, i, 0, 0x00#8⟩ ∧ (enterPrecheck r i s).events = s.events)

/-! The host. -/

/-- 45_dispatch_control.md rule R210, 10_state.md rules R36, R37, 20_memory.md rule R64: a Decode call that passes the
pre-checks latches its request and resets every register. BUF is the array the call passes: a new one, or the host's with
every write made since the call before. That the call stands in a field of State and is taken by a step of its own (log
entry 6), that the host's array is a field of State, which a call names or replaces (log entry 30), and that the events
of earlier decodes stay in the list (log entry 12), are the model's choices. The cited rules hold what the spec marks as
its own: decisions D2, D6, D7, D16, D27, D34, general knowledge and derivations (log entry 1). -/
def Obligations.DecodeStartResets : Prop :=
  ∀ (s : State) (array : Option (List Byte)) (start len vmaj vmin vminmin : Nat),
    s.call = some (.decode array start len vmaj vmin vminmin) → s.status ≠ .run →
    start + len ≤ (array.map List.length).getD s.hostSize → versionOk s.params vmaj vmin vminmin = true →
      ∃ t, step s = .next t ∧
        (∀ bytes, array = some bytes →
          t.size = bytes.length ∧ ∀ (a : Nat) (h : a < bytes.length), t.buf.read a = bytes[a]) ∧
        (array = none → t.buf = s.hostBuf ∧ t.size = s.hostSize) ∧
        t.hostBuf = t.buf ∧ t.hostSize = t.size ∧ t.start = start ∧ t.len = len ∧
        t.vmaj = vmaj ∧ t.vmin = vmin ∧ t.vminmin = vminmin ∧
        t.p = start ∧ t.w = 0#32 ∧ t.c = 0 ∧ t.cur = 0x00#8 ∧ t.nxt = 0x01#8 ∧
        (∀ (k : TableId) (h6 : BitVec 6), t.entryAt k h6 = none) ∧
        (∀ j : BitVec 4, t.slot j = unwrittenSlot s.params) ∧
        (s.params.unwrittenRead = .fault →
          t.pos = none ∧ t.color = none ∧ t.alpha = none ∧ t.normal = none) ∧
        (s.params.unwrittenRead = .zero →
          t.pos = some ⟨0, 0, 0⟩ ∧ t.color = some ⟨0, 0, 0⟩ ∧ t.alpha = some 0 ∧ t.normal = some ⟨0, 0, 0, 0⟩) ∧
        t.wi = 15#4 ∧ t.bn = false ∧ t.bc = false ∧ t.ba = false ∧ t.useMn = false ∧ t.useMc = false ∧
        t.rep = 0#2 ∧ t.status = .run ∧ t.params = s.params ∧ t.events = s.events ∧ t.call = none

/-- 45_dispatch_control.md rule R210, 60_exceptions.md rules R250, R253, R256: the bounds check comes first, then the
version check; a failed one leaves its error and sends no event. That the call is taken by a step of its own, and that
it names the host's array or brings a new one, are the model's choices (log entries 6 and 30). The cited rules hold what the spec marks as its own: decisions D2, D16 and derivations
(log entry 1). -/
def Obligations.PrechecksRejectBeforeDecoding : Prop :=
  ∀ (s : State) (array : Option (List Byte)) (start len vmaj vmin vminmin : Nat),
    s.call = some (.decode array start len vmaj vmin vminmin) → s.status ≠ .run →
    let size := (array.map List.length).getD s.hostSize
    (size < start + len →
      ∃ t, step s = .next t ∧ t.status = .error ⟨1, .precheck, .endAddress (start + len), 0, 0x00#8⟩ ∧
        t.events = s.events) ∧
    (start + len ≤ size → versionOk s.params vmaj vmin vminmin = false →
      ∃ t, step s = .next t ∧ t.status = .error ⟨2, .version, .declared vmaj vmin vminmin, 0, 0x00#8⟩ ∧
        t.events = s.events)

/-- 45_dispatch_control.md rule R227: a stream is accepted if its major version is lower, or equal with a minor version
that is not higher; the third component does not count. -/
def Obligations.VersionGateComparesMajorThenMinor : Prop :=
  ∀ (params : Params) (vmaj vmin vminmin : Nat),
    versionOk params vmaj vmin vminmin = true ↔
      vmaj < params.supportedMajor ∨ (vmaj = params.supportedMajor ∧ vmin ≤ params.supportedMinor)

/-- 20_memory.md rules R62, R64, 60_exceptions.md rule R259, 10_state.md rule R36: a second Decode call, and a change to
BUF[S..E-1], while a decode runs have no defined result; the model refuses both by name (the rule allows it). Any other
host write inside the host's array changes exactly that byte of it, which reads back, and nothing else but the call that
is taken: the latched BUF stays; one outside the array faults. That host calls stand in a field of State, that a write is
one, the fault, and that the host's array is a field beside the latched BUF are the model's choices (log entries 6, 27,
11 and 30). The cited rules hold what the spec marks as its own: decisions D18, D34 and derivations (log entry 1). -/
def Obligations.HostCallsRefusedOrWriteOneByte : Prop :=
  ∀ s : State,
    (s.status = .run →
      (∀ (array : Option (List Byte)) (start len vmaj vmin vminmin : Nat),
        s.call = some (.decode array start len vmaj vmin vminmin) → step s = .refused .decodeWhileRunning) ∧
      (∀ (a : Nat) (b : Byte), s.call = some (.writeBuffer a b) → s.start ≤ a → a < s.endAddr →
        step s = .refused .bufferChangedWhileRunning)) ∧
    (∀ (a : Nat) (b : Byte), s.call = some (.writeBuffer a b) → (s.status = .run → a < s.start ∨ s.endAddr ≤ a) →
      (Memory.wf s.hostSize s.hostBuf = true → a < s.hostSize →
        ∃ m : Memory, step s = .next { s with hostBuf := m, call := none } ∧ Memory.wf s.hostSize m = true ∧
          m.read a = b ∧ ∀ i, i ≠ a → m.read i = s.hostBuf.read i) ∧
      (s.hostSize ≤ a → step s = .fault (.noSuchByte a)))

/-! Set table, set state, control commands. -/

/-- 40_set_table.md rules R100, R101, R103 to R106: STB writes the entry of its body into exactly the slots whose top
`t` bits are the tag, where the 7-bit address is the tag with a 1 in front of it; an address of 0 acts as the empty
tag. Nothing else changes. The cited rules hold what the spec marks as its own: general knowledge and derivations (log
entry 1). -/
def Obligations.StbFillsTaggedSlots : Prop :=
  ∀ (s : State) (k : TableId) (sel : BitVec 2) (a6 : Bool),
    (sel, k) ∈ [(0#2, TableId.position), (1#2, .color), (2#2, .normal)] → Readable s 15 →
    let adr := (if a6 then 64 else 0) + peek s 0 6
    let t := Nat.log2 adr
    let dl := peek s 6 4
    let e : Entry :=
      { tagLength := t, dataLength := if dl = 0 ∧ k ≠ .normal then 16 else dl
        rightShift := peek s 11 4, absolute := bitAt s 10 }
    ∃ table : Table, exec (.stb sel a6) s = .next ((consume s 15).setTable k table) ∧
      ∀ i : Fin 64, table[i] = if adr = 0 ∨ i.val / 2 ^ (6 - t) + 2 ^ t = adr then some e else (s.table k)[i]

/-- 40_set_table.md rule R102: table select 3 raises RESERVED_TABLE before a body bit is read, both as the row
STB_RESERVED_SELECT and as a set table with that select. The info of an error whose rule names no item, and what the
state after an error holds beside STATUS and the events, are the model's choices (log entries 18 and 3). The cited
rules hold what the spec marks as its own: decision D5 (log entry 1). -/
def Obligations.ReservedTableSelectRaises : Prop :=
  ∀ (s : State) (a6 : Bool),
    exec (.stbReservedSelect a6) s = .next (enterError .reservedTable .nothing s) ∧
      exec (.stb 3#2 a6) s = .next (enterError .reservedTable .nothing s)

/-- 40_set_table.md rule R106: writing an entry at an address with tag length `t` sets every slot of the table whose top
`t` bits are the address's tag, 2^(6-t) of them, and changes no other slot of any table. -/
def Obligations.FilledSlotsShareTheTag : Prop :=
  ∀ (s : State) (k : TableId) (adr : BitVec 7) (e : Entry), adr ≠ 0 →
    let t := highestSetBit adr
    let s' := s.setTable k (fillSlots (s.table k) adr e)
    (∀ i : Fin 64, (s'.table k)[i] =
      if i.val / 2 ^ (6 - t) = adr.toNat - 2 ^ t then some e else (s.table k)[i]) ∧
    (∀ k' : TableId, k' ≠ k → s'.table k' = s.table k') ∧
    ((List.finRange 64).filter fun i => decide (i.val / 2 ^ (6 - t) = adr.toNat - 2 ^ t)).length = 2 ^ (6 - t)

/-- 40_set_table.md rules R106, R107: of two set tables, each slot keeps the later write that reaches it, and the
ranges of two addresses nest or are disjoint. The cited rules hold what the spec marks as its own: derivations (log
entry 1). -/
def Obligations.LaterTableWriteWins : Prop :=
  ∀ (t : Table) (a b : BitVec 7) (ea eb : Entry),
    let inRange := fun (adr : BitVec 7) (i : Fin 64) =>
      baseSlot adr ≤ i.val ∧ i.val < baseSlot adr + 2 ^ (6 - highestSetBit adr)
    (∀ i : Fin 64,
      (inRange b i → (fillSlots (fillSlots t a ea) b eb)[i] = some eb) ∧
      (inRange a i → ¬inRange b i → (fillSlots (fillSlots t a ea) b eb)[i] = some ea) ∧
      (¬inRange a i → ¬inRange b i → (fillSlots (fillSlots t a ea) b eb)[i] = t[i])) ∧
    ((∀ i, inRange a i → inRange b i) ∨ (∀ i, inRange b i → inRange a i) ∨
      (∀ i, ¬(inRange a i ∧ inRange b i)))

/-- 45_dispatch_control.md rule R218, 30_encoding.md rule R86: SST writes the three flags from its header bit and its
body, ignores the other bits, and sends one VertexFormat; nothing else changes. The cited rules hold what the spec
marks as its own: decision D33, general knowledge and derivations (log entry 1). -/
def Obligations.SstSetsBundlingFlags : Prop :=
  ∀ (s : State) (x : BitVec 2) (bn : Bool), Readable s 3 →
    exec (.sst x bn) s = .next { consume s 3 with
      bn := bn, bc := bitAt s 0, ba := bitAt s 1
      events := s.events ++ [.vertexFormat bn (bitAt s 0) (bitAt s 1)] }

/-- 45_dispatch_control.md rules R219 to R222: EOS changes nothing; VNOP, SKIP8 and PASS take their bodies from the
stream and change nothing else. The cited rules hold what the spec marks as its own: decision D15, general knowledge
and derivations (log entry 1). -/
def Obligations.ControlCommandsOnlySkip : Prop :=
  ∀ s : State,
    exec .eos s = .next s ∧
      (Readable s 5 → Readable s (5 + peek s 0 5) → exec .vnop s = .next (consume s (5 + peek s 0 5))) ∧
      (Readable s 8 → exec .skip8 s = .next (consume s 8)) ∧
      (Readable s 56 → exec .pass s = .next (consume s 56))

/-- 30_encoding.md rule R84: each reserved header raises RESERVED_OPCODE with its value before a body bit is read. What
the state after an error holds beside STATUS and the events is the model's choice (log entry 3). The cited rules hold
what the spec marks as its own: decision D5 and general knowledge (log entry 1). -/
def Obligations.ReservedHeadersRaise : Prop :=
  ∀ s : State,
    exec .reserved02 s = .next (enterError .reservedOpcode (.header 0x02#8) s) ∧
    exec .reserved03 s = .next (enterError .reservedOpcode (.header 0x03#8) s) ∧
    exec .reserved04 s = .next (enterError .reservedOpcode (.header 0x04#8) s) ∧
    exec .reserved05 s = .next (enterError .reservedOpcode (.header 0x05#8) s) ∧
    exec .reserved06 s = .next (enterError .reservedOpcode (.header 0x06#8) s) ∧
    exec .reserved09 s = .next (enterError .reservedOpcode (.header 0x09#8) s) ∧
    exec .reserved0A s = .next (enterError .reservedOpcode (.header 0x0A#8) s) ∧
    exec .reserved0B s = .next (enterError .reservedOpcode (.header 0x0B#8) s) ∧
    exec .reserved0C s = .next (enterError .reservedOpcode (.header 0x0C#8) s) ∧
    exec .reserved0D s = .next (enterError .reservedOpcode (.header 0x0D#8) s) ∧
    exec .reserved0E s = .next (enterError .reservedOpcode (.header 0x0E#8) s) ∧
    exec .reserved0F s = .next (enterError .reservedOpcode (.header 0x0F#8) s)

/-- 60_exceptions.md rule R252, 20_memory.md rule R53: every request of a command, in its lookahead fetch and in its
body, the skipped bits of VNOP, both halves of PASS and every field of NRM, COL, VTX, NRM_SUB and COL_SUB among them,
raises REFILL_PAST_END where it needs bits past the last whole word, with the cursor and the stream offset at which the
request is made. What the state after an error holds beside STATUS and the events is the model's choice (log entry 3).
The cited rules hold what the spec marks as its own: decisions D1, D3, D33, general knowledge (the field orders) and
derivations (log entry 1). -/
def Obligations.BodyPastEndRaises : Prop :=
  ∀ (s : State) (i : Instr) (before rest : List Nat) (n : Nat), requests s i = before ++ n :: rest →
    RunsDry s before.sum n →
      exec i s = .next (enterError .refillPastEnd (.cursor (consume s before.sum).p)
        { consume s before.sum with cur := headerDuring s i })

/-! Vertex. -/

/-- 41_vertex.md rule R120, 45_dispatch_control.md rules R213, R216, R217: an unbundled vertex, absolute or relative,
with or without push: the whole state after it. The cited rules hold what the spec marks as its own: decisions D1, D12,
D14 and general knowledge (log entry 1). -/
def Obligations.UnbundledVertexExecutes : Prop :=
  ∀ (s : State) (h6 : BitVec 6) (e : Entry) (p0 : Position) (n : Normal) (c : Color) (a : Word16),
    Selects s .position h6 e → 3 ≤ e.tagLength + 3 * e.fieldLength → s.bn = false → s.bc = false →
    (e.absolute = false → s.pos = some p0) →
    Readable s (8 + (e.tagLength + 3 * e.fieldLength - 3)) →
      exec (.vtx h6) s = .next (emitted (positioned s h6 e 8 p0) (vertexPos s h6 e 8 p0) n c a)

/-- 45_dispatch_control.md rules R213, R215, R216: a vertex with a bundled normal decodes its position, then the normal
of the fetched subheader, and only then is emitted; an error of the normal ends the step with no event. The cited rules
hold what the spec marks as its own: decisions D1, D14, general knowledge and derivations (log entry 1). -/
def Obligations.VertexWithNormalExecutes : Prop :=
  ∀ (s t : State) (h6 : BitVec 6) (e : Entry) (p0 p : Position) (n : Normal) (c : Color) (a : Word16),
    Selects s .position h6 e → 3 ≤ e.tagLength + 3 * e.fieldLength → s.bn = true → s.bc = false →
    s.status = .run → (e.absolute = false → s.pos = some p0) →
    Readable s (6 + (e.tagLength + 3 * e.fieldLength - 3)) →
    exec (.nrmSub (BitVec.ofNat 6 (peek s 0 6)) ((vertexRm s h6 e 6).getLsbD 0)) (positioned s h6 e 6 p0) = .next t →
      (t.status = .run → Emits t p n c a → exec (.vtx h6) s = .next (emitted t p n c a)) ∧
        (t.status ≠ .run → exec (.vtx h6) s = .next t)

/-- 45_dispatch_control.md rules R213, R215, R216: the same with a bundled color. The cited rules hold what the spec
marks as its own: decisions D1, D14, general knowledge and derivations (log entry 1). -/
def Obligations.VertexWithColorExecutes : Prop :=
  ∀ (s t : State) (h6 : BitVec 6) (e : Entry) (p0 p : Position) (n : Normal) (c : Color) (a : Word16),
    Selects s .position h6 e → 3 ≤ e.tagLength + 3 * e.fieldLength → s.bn = false → s.bc = true →
    s.status = .run → (e.absolute = false → s.pos = some p0) →
    Readable s (6 + (e.tagLength + 3 * e.fieldLength - 3)) →
    exec (.colSub (BitVec.ofNat 6 (peek s 0 6)) ((vertexRm s h6 e 6).getLsbD 0)) (positioned s h6 e 6 p0) = .next t →
      (t.status = .run → Emits t p n c a → exec (.vtx h6) s = .next (emitted t p n c a)) ∧
        (t.status ≠ .run → exec (.vtx h6) s = .next t)

/-- 45_dispatch_control.md rules R213, R215, R216: with both, the normal comes before the color, and the color's subheader
is the one that the normal's fetch left in NXT; an error of either ends the step with no event. The cited rules hold what the
spec marks as its own: decisions D1, D14, general knowledge and derivations (log entry 1). -/
def Obligations.VertexWithNormalAndColorExecutes : Prop :=
  ∀ (s u : State) (h6 : BitVec 6) (e : Entry) (p0 : Position),
    Selects s .position h6 e → 3 ≤ e.tagLength + 3 * e.fieldLength → s.bn = true → s.bc = true →
    s.status = .run → (e.absolute = false → s.pos = some p0) →
    Readable s (6 + (e.tagLength + 3 * e.fieldLength - 3)) →
    let mbp := (vertexRm s h6 e 6).getLsbD 0
    exec (.nrmSub (BitVec.ofNat 6 (peek s 0 6)) mbp) (positioned s h6 e 6 p0) = .next u →
      (u.status ≠ .run → exec (.vtx h6) s = .next u) ∧
      (∀ (t : State) (p : Position) (n : Normal) (c : Color) (a : Word16), u.status = .run →
        exec (.colSub (u.nxt.setWidth 6) mbp) u = .next t →
          (t.status = .run → Emits t p n c a → exec (.vtx h6) s = .next (emitted t p n c a)) ∧
            (t.status ≠ .run → exec (.vtx h6) s = .next t))

/-- 41_vertex.md rule R120 (its list of exceptions), 30_encoding.md rules R77, R79, R81, 10_state.md rule R38: the
errors of the position part, each with the stream offset at which it is raised. The info of an error whose rule names
no item, and what the state after an error holds beside STATUS and the events, are the model's choices (log entries 18
and 3). The cited rules hold what the spec marks as its own: decisions D6, D7, D8, D9 (log entry 1). -/
def Obligations.VertexErrorsRaise : Prop :=
  ∀ (s : State) (h6 : BitVec 6), Readable s (if s.bn = true ∨ s.bc = true then 6 else 8) →
    let w := if s.bn = true ∨ s.bc = true then 6 else 8
    (s.entryAt .position h6 = none →
      exec (.vtx h6) s = .next (enterError .unsetTableEntry (.slot .position h6) (consume s w))) ∧
    (∀ e, s.entryAt .position h6 = some e → e.dataLength < e.rightShift →
      exec (.vtx h6) s = .next (enterError .negativeLength (.slot .position h6) (consume s w))) ∧
    (∀ e, Selects s .position h6 e → e.tagLength + 3 * e.fieldLength < 3 →
      exec (.vtx h6) s = .next (enterError .positionOverfit .nothing (consume s w))) ∧
    (∀ e, Selects s .position h6 e → 3 ≤ e.tagLength + 3 * e.fieldLength → e.absolute = false → s.pos = none →
      Readable s (w + (e.tagLength + 3 * e.fieldLength - 3)) →
      exec (.vtx h6) s =
        .next (enterError .undefinedRead .nothing (consume s (w + (e.tagLength + 3 * e.fieldLength - 3)))))

/-- 41_vertex.md rule R126, 42_normal.md rule R151, 43_color.md rule R176: a vertex whose push bit is set advances WI
and writes its accumulated position into the P part of that slot; the N part takes the normal only when it is bundled,
the C and A parts the color and alpha only when it is, A whatever BA is, and else they keep what they held; no other
slot changes. A vertex whose push bit is clear writes none. The cited rules hold what the spec marks as its own:
general knowledge (the place of the push bit in rule R80, the copy of A whatever BA is in rule R176) and derivations
(log entry 1). -/
def Obligations.VertexPushWritesItsParts : Prop :=
  ∀ (s t : State) (h6 : BitVec 6) (e : Entry), Selects s .position h6 e →
    let w := if s.bn = true ∨ s.bc = true then 6 else 8
    Readable s (w + (e.tagLength + 3 * e.fieldLength - 3)) →
    exec (.vtx h6) s = .next t → t.status.isError = false →
      ((vertexRm s h6 e w).getLsbD 0 = true →
        t.wi.toNat = (s.wi.toNat + 1) % 16 ∧ (t.slot t.wi).pos = t.pos ∧
          (t.slot t.wi).normal = (if s.bn then t.normal else (s.slot t.wi).normal) ∧
          (t.slot t.wi).color = (if s.bc then t.color else (s.slot t.wi).color) ∧
          (t.slot t.wi).alpha = (if s.bc then t.alpha else (s.slot t.wi).alpha) ∧
          ∀ j : BitVec 4, j ≠ t.wi → t.slot j = s.slot j) ∧
      ((vertexRm s h6 e w).getLsbD 0 = false → t.wi = s.wi ∧ t.vc = s.vc)

/-! Normal. -/

/-- 42_normal.md rules R140 to R142, R149, R152: an absolute normal in the triangle: the whole state after it. What the
state after an error holds beside STATUS and the events is the model's choice (log entry 3). The cited rules hold what
the spec marks as its own: decision D10 and derivations (log entry 1). -/
def Obligations.AbsoluteNormalExecutes : Prop :=
  ∀ (s : State) (h6 : BitVec 6) (e : Entry), Selects s .normal h6 e → e.absolute = true →
    Readable s (e.tagLength + 2 * e.fieldLength) →
    let avail := 6 - e.tagLength
    let so := BitVec.ofNat 6 (dataField s h6 avail 0 0 6)
    let u := dataField s h6 avail 0 6 e.fieldLength * 2 ^ e.rightShift
    let v := dataField s h6 avail 0 (6 + e.fieldLength) e.fieldLength * 2 ^ e.rightShift
    (u + v ≤ 64 →
      exec (.nrm h6) s = .next (normalSet s false (e.tagLength + 2 * e.fieldLength)
        ⟨so.extractLsb' 3 3, so.extractLsb' 0 3, u, v⟩)) ∧
    (64 < u + v →
      exec (.nrm h6) s = .next (enterError .outOfDomain (.uv u v) (consume s (e.tagLength + 2 * e.fieldLength))))

/-- 42_normal.md rules R143, R144, R148, R149: a relative normal adds its deltas; inside the triangle the sum stands,
outside it one correction is made, whose result must lie in the triangle. What the state after an error holds beside
STATUS and the events is the model's choice (log entry 3). The cited rules hold what the spec marks as its own:
decisions D10, D13 and derivations (log entry 1). -/
def Obligations.RelativeNormalExecutes : Prop :=
  ∀ (s : State) (h6 : BitVec 6) (e : Entry) (n0 : Normal), Selects s .normal h6 e → e.absolute = false →
    s.normal = some n0 → Readable s (2 * e.fieldLength - (6 - e.tagLength)) →
    let avail := 6 - e.tagLength
    let taken := 2 * e.fieldLength - avail
    let u := n0.u + signedInt e.fieldLength e.rightShift (dataField s h6 avail 0 0 e.fieldLength)
    let v := n0.v + signedInt e.fieldLength e.rightShift (dataField s h6 avail 0 e.fieldLength e.fieldLength)
    (0 ≤ u ∧ 0 ≤ v ∧ u + v ≤ 64 →
      exec (.nrm h6) s = .next (normalSet s false taken { n0 with u := u, v := v })) ∧
    (∀ n1, ¬(0 ≤ u ∧ 0 ≤ v ∧ u + v ≤ 64) → wrapNormal { n0 with u := u, v := v } = some n1 →
      (inDomain n1.u n1.v = true → exec (.nrm h6) s = .next (normalSet s false taken n1)) ∧
      (inDomain n1.u n1.v = false →
        exec (.nrm h6) s = .next (enterError .outOfDomain (.uv n1.u n1.v) (consume s taken)))) ∧
    (u < 0 → v < 0 → exec (.nrm h6) s = .next (enterError .noWrapCase (.uv u v) (consume s taken)))

/-- 42_normal.md rules R144 to R147: the three corrections and their maps. The cited rules hold what the spec marks as
its own: decisions D10, D11 and derivations (log entry 1). -/
def Obligations.WrapCorrectsOnce : Prop :=
  ∀ n : Normal,
    (n.u < 0 → 0 ≤ n.v → wrapNormal n =
      some ⟨[4#3, 5#3, 3#3, 2#3, 0#3, 1#3, 6#3, 7#3].getD n.sex.toNat 0#3, n.oct, -n.u, n.v⟩) ∧
    (0 ≤ n.u → n.v < 0 → wrapNormal n =
      some ⟨n.sex, n.oct ^^^ [2#3, 4#3, 1#3, 1#3, 2#3, 4#3, 0#3, 0#3].getD n.sex.toNat 0#3, n.u, -n.v⟩) ∧
    (0 ≤ n.u → 0 ≤ n.v → 64 < n.u + n.v → wrapNormal n =
      some ⟨[2#3, 3#3, 0#3, 1#3, 5#3, 4#3, 6#3, 7#3].getD n.sex.toNat 0#3, n.oct, 64 - n.u, 64 - n.v⟩) ∧
    (n.u < 0 → n.v < 0 → wrapNormal n = none)

/-- 42_normal.md rules R146, R154, R155: the octant bit a v-wrap flips is the one that governs the component v
measures: it negates the ROM's y component, wherever the sextant puts it, and no other. The cited rules hold what the
spec marks as its own: decisions D11, D19, general knowledge and derivations (log entry 1). -/
def Obligations.VWrapNegatesTheComponentOfV : Prop :=
  ∀ (sex oct : BitVec 3) (x y z : F32), sex.toNat ≤ 5 →
    flipSigns (oct ^^^ vWrapBit sex) (permute sex ⟨x, y, z⟩) =
      flipSigns oct (permute sex ⟨x, negate y, z⟩)

/-- 42_normal.md rules R153 to R155: the six permutations of the ROM's vector, and the sign bit each octant bit flips.
The cited rules hold what the spec marks as its own: decisions D19, D20, general knowledge and derivations (log entry
1). -/
def Obligations.ConversionPermutesThenFlips : Prop :=
  ∀ (params : Params) (n : Normal), n.sex.toNat ≤ 5 → inDomain n.u n.v = true →
    ∀ e, (params.nqt[n.v.toNat]?).bind (·[n.u.toNat]?) = some e →
    let a := romValue e.kx
    let b := romValue e.ky
    let c := romValue e.kz
    let m : Vec3 := [Vec3.mk a b c, ⟨b, a, c⟩, ⟨a, c, b⟩, ⟨c, a, b⟩, ⟨c, b, a⟩, ⟨b, c, a⟩].getD n.sex.toNat ⟨a, b, c⟩
    let flip := fun (bit : Bool) (f : F32) => if bit then f ^^^ 0x80000000#32 else f
    convert params n = ⟨flip (n.oct.getLsbD 2) m.x, flip (n.oct.getLsbD 1) m.y, flip (n.oct.getLsbD 0) m.z⟩

/-- 42_normal.md rules R150, R156: the vector of a special normal does not depend on u and v, and no correction changes
it; under the default SPECIAL_NORMALS it is that of the sixteen codes of rule R156, sign of zero included. The cited rules hold
what the spec marks as its own: decisions D11, D21, general knowledge and derivations (log entry 1). -/
def Obligations.SpecialNormalsIgnoreUV : Prop :=
  (∀ (params : Params) (n n' : Normal) (u v : Int), 6 ≤ n.sex.toNat →
    convert params { n with u := u, v := v } = convert params n ∧
      (wrapNormal { n with u := u, v := v } = some n' → convert params n' = convert params n)) ∧
  (let one : F32 := 0x3F800000#32
   let minusOne : F32 := 0xBF800000#32
   let minusZero : F32 := 0x80000000#32
   let k : F32 := 0x3F13CD3A#32
   let minusK : F32 := 0xBF13CD3A#32
   let sextant6 : List Vec3 :=
     [⟨one, 0, 0⟩, ⟨k, k, k⟩, ⟨minusOne, minusZero, minusZero⟩, ⟨k, k, minusK⟩,
       ⟨0, one, 0⟩, ⟨k, minusK, k⟩, ⟨minusZero, minusOne, minusZero⟩, ⟨k, minusK, minusK⟩]
   let sextant7 : List Vec3 :=
     [⟨0, 0, one⟩, ⟨minusK, k, k⟩, ⟨minusZero, minusZero, minusOne⟩, ⟨minusK, k, minusK⟩,
       ⟨0, 0, one⟩, ⟨minusK, minusK, k⟩, ⟨minusZero, minusZero, minusOne⟩, ⟨minusK, minusK, minusK⟩]
   ∀ (oct : BitVec 3) (u v : Int),
     sextant6[oct.toNat]? = some (convert defaultParams ⟨6#3, oct, u, v⟩) ∧
       sextant7[oct.toNat]? = some (convert defaultParams ⟨7#3, oct, u, v⟩))

/-- 42_normal.md rule R140 and 43_color.md rule R170 (their lists of exceptions), 30_encoding.md rules R77, R79,
10_state.md rule R38: the errors of a normal before its sum is known, and of a color. The info of an error whose rule
names no item, and what the state after an error holds beside STATUS and the events, are the model's choices (log
entries 18 and 3). The cited rules hold what the spec marks as its own: decisions D6, D7, D8 and derivations (log entry
1). -/
def Obligations.AttributeErrorsRaise : Prop :=
  ∀ (s : State) (h6 : BitVec 6),
    (s.entryAt .normal h6 = none →
      exec (.nrm h6) s = .next (enterError .unsetTableEntry (.slot .normal h6) s)) ∧
    (∀ e, s.entryAt .normal h6 = some e → e.dataLength < e.rightShift →
      exec (.nrm h6) s = .next (enterError .negativeLength (.slot .normal h6) s)) ∧
    (∀ e, Selects s .normal h6 e → e.absolute = false → s.normal = none →
      Readable s (2 * e.fieldLength - (6 - e.tagLength)) →
      exec (.nrm h6) s =
        .next (enterError .undefinedRead .nothing (consume s (2 * e.fieldLength - (6 - e.tagLength))))) ∧
    (s.entryAt .color h6 = none →
      exec (.col h6) s = .next (enterError .unsetTableEntry (.slot .color h6) s)) ∧
    (∀ e, s.entryAt .color h6 = some e → e.dataLength < e.rightShift →
      exec (.col h6) s = .next (enterError .negativeLength (.slot .color h6) s)) ∧
    (∀ e, Selects s .color h6 e → e.absolute = false → (s.color = none ∨ (s.ba = true ∧ s.alpha = none)) →
      Readable s ((if s.ba then 4 else 3) * e.fieldLength - (6 - e.tagLength)) →
      exec (.col h6) s = .next (enterError .undefinedRead .nothing
        (consume s ((if s.ba then 4 else 3) * e.fieldLength - (6 - e.tagLength)))))

/-- 45_dispatch_control.md rule R213, 30_encoding.md rule R88, 42_normal.md rules R142, R151: a bundled absolute normal
promotes its subheader, fetches the color's subheader or the next header, and pushes into the slot WI when the vertex
pushes; it sends no event. The push bit as an operand is the model's (log entry 13). The cited rules hold what the spec
marks as its own: decisions D1, D10, general knowledge and derivations (log entry 1). -/
def Obligations.BundledNormalExecutes : Prop :=
  ∀ (s : State) (h6 : BitVec 6) (mbp : Bool) (e : Entry), Selects s .normal h6 e → e.absolute = true → s.bn = true →
    let w := if s.bc then 6 else 8
    Readable s (w + (e.tagLength + 2 * e.fieldLength)) →
    let avail := 6 - e.tagLength
    let so := BitVec.ofNat 6 (dataField s h6 avail w 0 6)
    let u := dataField s h6 avail w 6 e.fieldLength * 2 ^ e.rightShift
    let v := dataField s h6 avail w (6 + e.fieldLength) e.fieldLength * 2 ^ e.rightShift
    u + v ≤ 64 →
      exec (.nrmSub h6 mbp) s = .next
        { normalSet s mbp (w + (e.tagLength + 2 * e.fieldLength))
            ⟨so.extractLsb' 3 3, so.extractLsb' 0 3, u, v⟩ with
          cur := 3#2 ++ h6, nxt := BitVec.ofNat 8 (peek s 0 w) }

/-- 45_dispatch_control.md rules R213, R214, 30_encoding.md rule R88, 42_normal.md rule R151, 43_color.md rule R176: in
every form, a bundled normal or color runs as the standalone command does once its subheader is promoted and the next
fetch is made, errors too; a push then copies the attribute into the slot WI. The push bit as an operand is the model's
(log entry 13). The cited rules hold what the spec marks as its own: decision D1, general knowledge and derivations
(log entry 1). -/
def Obligations.BundledPartsRunAsStandalone : Prop :=
  ∀ (s t : State) (h6 : BitVec 6), s.status = .run →
    (Readable s (if s.bc then 6 else 8) →
      exec (.nrm h6) (promoted s 3#2 h6 (if s.bc then 6 else 8)) = .next t →
        exec (.nrmSub h6 false) s = .next t ∧
        (t.status ≠ .run → exec (.nrmSub h6 true) s = .next t) ∧
        (t.status = .run → s.bn = true →
          exec (.nrmSub h6 true) s = .next (t.setSlot s.wi { s.slot s.wi with normal := t.normal }))) ∧
    (Readable s 8 → exec (.col h6) (promoted s 2#2 h6 8) = .next t →
        exec (.colSub h6 false) s = .next t ∧
        (t.status ≠ .run → exec (.colSub h6 true) s = .next t) ∧
        (t.status = .run → s.bc = true →
          exec (.colSub h6 true) s = .next (t.setSlot s.wi { s.slot s.wi with color := t.color, alpha := t.alpha })))

/-! Color. -/

/-- 43_color.md rules R170 to R178: a standalone color, absolute or relative, with or without alpha: the whole state
after it. The cited rules hold what the spec marks as its own: decisions D12, D14, D36 and derivations (log entry 1). -/
def Obligations.ColorExecutes : Prop :=
  ∀ (s : State) (h6 : BitVec 6) (e : Entry) (c0 : Color) (a0 : Word16), Selects s .color h6 e →
    (e.absolute = false → s.color = some c0 ∧ (s.ba = true → s.alpha = some a0)) →
    let taken := (if s.ba then 4 else 3) * e.fieldLength - (6 - e.tagLength)
    Readable s taken →
      exec (.col h6) s = .next (colorSet s false taken (colorAfter s h6 e 0 c0) (alphaAfter s h6 e 0 a0))

/-- 45_dispatch_control.md rule R213, 30_encoding.md rule R88, 43_color.md rules R170, R176: a bundled color promotes
its subheader, fetches the next header, and pushes color and alpha into the slot WI when the vertex pushes; it sends no
event. The push bit as an operand is the model's (log entry 13). The cited rules hold what the spec marks as its own:
decisions D1, D12, D36, general knowledge and derivations (log entry 1). -/
def Obligations.BundledColorExecutes : Prop :=
  ∀ (s : State) (h6 : BitVec 6) (mbp : Bool) (e : Entry) (c0 : Color) (a0 : Word16), Selects s .color h6 e →
    s.bc = true → (e.absolute = false → s.color = some c0 ∧ (s.ba = true → s.alpha = some a0)) →
    let taken := (if s.ba then 4 else 3) * e.fieldLength - (6 - e.tagLength)
    Readable s (8 + taken) →
      exec (.colSub h6 mbp) s = .next
        { colorSet s mbp (8 + taken) (colorAfter s h6 e 8 c0) (alphaAfter s h6 e 8 a0) with
          cur := 2#2 ++ h6, nxt := BitVec.ofNat 8 (peek s 0 8) }

/-! Mesh buffer reference. -/

/-- 44_mesh_reference.md rules R190 to R197, 45_dispatch_control.md rules R216, R217, R223: a mesh buffer reference
whose slot parts are there: position always, normal and color only when bundled and not set since the last vertex; then
the vertex is emitted. WI and the cache stay. The cited rules hold what the spec marks as its own: decision D14,
general knowledge and derivations (log entry 1). -/
def Obligations.MeshReferenceExecutes : Prop :=
  ∀ (s : State) (k : BitVec 4) (r1 : Bool) (p : Position) (n : Normal) (c : Color) (a : Word16),
    Readable s 1 →
    let j := (s.slot (s.wi - k))
    let takeN := s.bn && s.useMn
    let takeC := s.bc && s.useMc
    let t : State :=
      { consume s 1 with
        rep := BitVec.ofBool r1 ++ BitVec.ofBool (bitAt s 0)
        pos := some p
        normal := if takeN then j.normal else s.normal
        color := if takeC then j.color else s.color
        alpha := if takeC && s.ba then j.alpha else s.alpha }
    j.pos = some p → Emits t p n c a → exec (.mbr k r1) s = .next (emitted t p n c a)

/-- 44_mesh_reference.md rules R192, R193, R201: a reference that completes takes P from the slot (WI - k) mod 16,
which holds a position, and WI is not changed. The cited rules hold what the spec marks as its own: that the
accumulator P is overwritten is general knowledge (rule R193), and that an empty slot stops the reference is decisions
D7 and D35 (rules R38 and R201) (log entry 1). -/
def Obligations.ReferenceResolvesSlot : Prop :=
  ∀ (s t : State) (k : BitVec 4) (r1 : Bool), exec (.mbr k r1) s = .next t → t.status.isError = false →
    ∃ j : BitVec 4, (j.toNat : Int) = ((s.wi.toNat : Int) - k.toNat) % 16 ∧ (s.slot j).pos.isSome = true ∧
      t.pos = (s.slot j).pos ∧ t.wi = s.wi

/-- 44_mesh_reference.md rules R190, R201, 10_state.md rule R38: a part that the reference or the emission needs and
that holds no value raises UNDEFINED_READ, with no event. The info of an error whose rule names no item, and what the
state after an error holds beside STATUS and the events, are the model's choices (log entries 18 and 3). The cited
rules hold what the spec marks as its own: decisions D7, D14, D35 (log entry 1). -/
def Obligations.MeshReferenceErrorsRaise : Prop :=
  ∀ (s : State) (k : BitVec 4) (r1 : Bool), Readable s 1 →
    let j := (s.slot (s.wi - k))
    (j.pos = none ∨
      (s.bn = true ∧ (if s.useMn then j.normal else s.normal) = none) ∨
      (s.bc = true ∧ (if s.useMc then j.color else s.color) = none) ∨
      (s.bc = true ∧ s.ba = true ∧ (if s.useMc then j.alpha else s.alpha) = none)) →
      exec (.mbr k r1) s = .next (enterError .undefinedRead .nothing (consume s 1))

/-- 44_mesh_reference.md rules R192, R199, R200; 41_vertex.md rule R126: after any number of pushes, the reference with
offset `k < 16` finds the push `k` before the last, and offset 0 the last. The cited rules hold what the spec marks as
its own: derivations (log entry 1). -/
def Obligations.CacheKeepsLastSixteenPushes : Prop :=
  ∀ (s : State) (ps : List Position) (k : Nat), k < 16 → k < ps.length →
    let t := ps.foldl (fun (s : State) p => (s.setPos p).pushPosition) s
    (t.slot (t.wi - BitVec.ofNat 4 k)).pos = ps.reverse[k]? ∧
      t.wi.toNat = (s.wi.toNat + ps.length) % 16

/-! Frames over every command. -/

/-- 20_memory.md rule R50, 42_normal.md rule R159, 10_state.md rule R36: no command writes the buffer, the latched
request, the parameters or the ROM, and no command takes a host call or writes the host's array; and no step of a
running decode, a host write among them, changes the buffer or the latched request, which are constant during the decode.
The clauses about the parameters, the buffer and the request after an error, which rule R254 leaves unspecified, and about
the pending call and the host's array, the model's own fields, are the model's choice (log entries 3, 6 and 30). The cited
rules hold what the spec marks as its own: decision D34 and derivations (log entry 1). -/
def Obligations.CommandsKeepBufferRequestAndRom : Prop :=
  (∀ (i : Instr) (s t : State), exec i s = .next t →
    t.buf = s.buf ∧ t.size = s.size ∧ t.start = s.start ∧ t.len = s.len ∧ t.vmaj = s.vmaj ∧ t.vmin = s.vmin ∧
      t.vminmin = s.vminmin ∧ t.params = s.params ∧ t.call = s.call ∧ t.hostBuf = s.hostBuf ∧
      t.hostSize = s.hostSize) ∧
  (∀ s t : State, s.status = .run → step s = .next t →
    t.buf = s.buf ∧ t.size = s.size ∧ t.start = s.start ∧ t.len = s.len ∧ t.vmaj = s.vmaj ∧ t.vmin = s.vmin ∧
      t.vminmin = s.vminmin ∧ t.params = s.params)

/-- 10_state.md rules R23, R28, 40_set_table.md rule R106, 45_dispatch_control.md rule R218: a command that completes
writes a decode table only if it is a set table that selects it, and BN, BC and BA only if it is a set state. The cited
rules hold what the spec marks as its own: decisions D6, D27 and derivations (log entry 1). -/
def Obligations.OnlySetCommandsWriteConfiguration : Prop :=
  ∀ (i : Instr) (s t : State), exec i s = .next t → t.status.isError = false →
    (∀ k : TableId, (∀ sel a6, i = .stb sel a6 → tableOfSelect sel ≠ some k) → t.table k = s.table k) ∧
      ((∀ x bn, i ≠ .sst x bn) → t.bn = s.bn ∧ t.bc = s.bc ∧ t.ba = s.ba)

/-- 10_state.md rules R30, R31, 44_mesh_reference.md rule R197: a command that completes writes the vertex cache or WI
only if it is a vertex or one of its bundled parts, and WI only if it is a vertex; a vertex writes at most the slot
that WI selects after it. The cited rules hold what the spec marks as its own: decision D37, general knowledge and
derivations (log entry 1). -/
def Obligations.OnlyVerticesWriteTheCache : Prop :=
  ∀ (i : Instr) (s t : State), exec i s = .next t → t.status.isError = false →
    ((∀ h6, i ≠ .vtx h6) → t.wi = s.wi) ∧
      ((∀ h6, i ≠ .vtx h6) → (∀ h6 mbp, i ≠ .nrmSub h6 mbp) → (∀ h6 mbp, i ≠ .colSub h6 mbp) → t.vc = s.vc) ∧
      (∀ j : BitVec 4, j ≠ t.wi → t.slot j = s.slot j) ∧
      (t.wi = s.wi ∨ t.wi = s.wi + 1)

/-- 10_state.md rule R28, 44_mesh_reference.md rule R198: after an emitted vertex both mesh-use flags are set; a normal
clears USE_MN, a color clears USE_MC, and no other completed command changes either. The cited rules hold what the spec
marks as its own: decision D27 and derivations (log entry 1). -/
def Obligations.MeshUseFlagsTrackAttributes : Prop :=
  ∀ (i : Instr) (s t : State), exec i s = .next t → t.status.isError = false →
    match i with
    | .vtx _ | .mbr _ _ => t.useMn = true ∧ t.useMc = true
    | .nrm _ | .nrmSub _ _ => t.useMn = false ∧ t.useMc = s.useMc
    | .col _ | .colSub _ _ => t.useMn = s.useMn ∧ t.useMc = false
    | _ => t.useMn = s.useMn ∧ t.useMc = s.useMc

/-- 45_dispatch_control.md rules R216, R226, R235: what each command that completes adds to the events: one VertexFormat for
a set state, one Vertex for a vertex or a mesh reference, with a normal exactly when BN = 1, a color exactly when BC = 1 and
its alpha exactly when BA = 1, one GlobalNormal for a normal while BN = 0, one GlobalColor for a color while BC = 0, with
alpha exactly when BA = 1, and nothing for any other. The cited rules hold what the spec marks as its own: decision D14 and
derivations (log entry 1). -/
def Obligations.EventsPerCommand : Prop :=
  ∀ (i : Instr) (s t : State), exec i s = .next t → t.status.isError = false →
    match i with
    | .sst _ bn => ∃ bc ba, t.events = s.events ++ [.vertexFormat bn bc ba]
    | .vtx _ | .mbr _ _ => ∃ p n c, t.events = s.events ++ [.vertex p n c t.rep] ∧
        (n.isSome = s.bn) ∧ (c.isSome = s.bc) ∧ ∀ v : ColorValue, c = some v → v.a.isSome = s.ba
    | .nrm _ | .nrmSub _ _ =>
        if s.bn then t.events = s.events else ∃ n, t.events = s.events ++ [.globalNormal n]
    | .col _ | .colSub _ _ =>
        if s.bc then t.events = s.events else ∃ c, t.events = s.events ++ [.globalColor c] ∧ (c.a.isSome = s.ba)
    | _ => t.events = s.events

/-- 60_exceptions.md rule R254: a step of a running decode that ends in an error sends no event. The cited rules hold
what the spec marks as its own: decision D22 and derivations (log entry 1). -/
def Obligations.FailingStepSendsNoEvent : Prop :=
  ∀ s t : State, s.call = none → s.status = .run → step s = .next t → t.status.isError = true →
    t.events = s.events

/-- 10_state.md rule R35: no command moves the stream position back. The cited rules hold what the spec marks as its
own: derivations (log entry 1). -/
def Obligations.StreamPositionOnlyAdvances : Prop :=
  ∀ (i : Instr) (s t : State), exec i s = .next t → t.status.isError = false → s.bitpos ≤ t.bitpos

/-- 20_memory.md rules R50, R60: what a command does depends on no byte of the buffer outside [S, E). For a command
that ends in an error this also says that the buffer stays and that the registers, which rule R254 leaves unspecified,
are the same free values in both runs: that is the model's choice (log entries 3 and 4). -/
def Obligations.OutsideWindowNeverRead : Prop :=
  ∀ (i : Instr) (s : State) (m : Memory), s.start ≤ s.p →
    (∀ a, s.start ≤ a → a < s.endAddr → m.read a = s.buf.read a) →
    exec i { s with buf := m } =
      match exec i s with
      | .next t => .next { t with buf := m }
      | .fault r => .fault r
      | .refused r => .refused r

/-! The machine as a whole. -/

/-- 10_state.md rule R37: the state after reset meets the invariant. Its registers have the values of that rule; its request,
an empty buffer and array of the host with S = L_BYTES = 0, on which the clauses about the buffer, the array and E rest, is the model's choice (log entry
7), as are its parameters, the defaults of 00_scope.md rule R6 (log entry 15), and that State.reset is the state at decode
start is read from the rule (log entry 8). The cited rules hold what the spec marks as its own: decisions D2, D6, D7, D27,
general knowledge and derivations (log entry 1). -/
def Obligations.ResetIsSound : Prop := Sound State.reset

/-- The invariant holds along every step: the buffer and the host's array stay canonical; while a decode runs and at its normal end the
extractor, the tables, the normals and the defined registers stay as 10_state.md rules R21, R23, R27, R38, 20_memory.md
rules R51, R54 and 42_normal.md rule R149 say. The cited rules hold what the spec marks as its own: decisions D4, D6,
D7, D10 and derivations (log entry 1). -/
def Obligations.StepKeepsSound : Prop :=
  ∀ s t : State, Sound s → step s = .next t → Sound t

/-- 20_memory.md rule R51, 60_exceptions.md rules R255, R257: from a sound state with no host call pending, every step
has a next state: no access leaves the buffer, and every command, of every header, is executed or ends in an error of
the spec. That an instance that is not running has steps, in which at most DONE becomes IDLE, is the model's choice (log
entries 2 and 20). The cited rules hold what the spec marks as its own: derivations (log entry 1). -/
def Obligations.SoundStepHasNextState : Prop :=
  ∀ s : State, Sound s → s.call = none → ∃ t, step s = .next t ∧ t.call = none

/-- 45_dispatch_control.md rules R211, R212; 60_exceptions.md rule R258: a decode is bounded by its input: as long as
the host makes no call it has ended after one step for every 6 bits before E and one more. That the end of the loop is the
one step more, and what a stopped machine's steps are, are the model's (log entries 5, 2 and 20). The cited rules hold what
the spec marks as its own: decisions D1, D23, D29 and derivations (log entry 1). -/
def Obligations.DecodeIsBoundedByInput : Prop :=
  ∀ s : State, Sound s → s.call = none →
    ∃ t, Host.Core.run Sys2Proof.core (bitsBeforeEnd s / 6 + 1) s = .next t ∧ t.status ≠ .run

/-- 20_memory.md rule R59, 70_reset_and_hazards.md rule R291: a decode that ends normally has taken every bit up to E,
and its length is a multiple of 4. The cited rules hold what the spec marks as its own: decision D29 and derivations
(log entry 1). -/
def Obligations.NormalEndConsumesWholeWords : Prop :=
  ∀ s t : State, Sound s → s.call = none → s.status = .run → step s = .next t → t.status = .done →
    s.p = s.endAddr ∧ s.c = 0 ∧ s.len % 4 = 0

/-- 10_state.md rule R38: under `UNWRITTEN_READ = zero` no step of a running decode raises UNDEFINED_READ. The cited
rules hold what the spec marks as its own: decision D7 (log entry 1). -/
def Obligations.ZeroPolicyNeverUndefined : Prop :=
  ∀ (s t : State) (e : ErrorRecord), Sound s → s.call = none → s.status = .run →
    s.params.unwrittenRead = .zero → step s = .next t → t.status = .error e → e.reason ≠ .undefinedRead

/-! Outputs. -/

/-- 41_vertex.md rule R129: the position the sink gets is exactly P / 32768, between -1 and 1 - 2^-15. -/
def Obligations.PositionOutputIsExact : Prop :=
  ∀ p : Position,
    value32 p.toFloats.x = (p.x.toInt : ℚ) / 32768 ∧ value32 p.toFloats.y = (p.y.toInt : ℚ) / 32768 ∧
      value32 p.toFloats.z = (p.z.toInt : ℚ) / 32768 ∧
      ∀ f ∈ [p.toFloats.x, p.toFloats.y, p.toFloats.z], -1 ≤ value32 f ∧ value32 f ≤ 1 - 1 / 2 ^ 15

/-- 00_scope.md rule R11, 10_state.md rule R34: a ROM integer's value is exactly k / 16384, and flipping the sign bit
of an output negates its value. The cited rules hold what the spec marks as its own: decision D19 and derivations (log
entry 1). -/
def Obligations.NormalOutputIsExact : Prop :=
  ∀ k : Word16, value32 (romValue k) = (k.toInt : ℚ) / 16384 ∧
    value32 (negate (romValue k)) = -((k.toInt : ℚ) / 16384) ∧ negate (romValue 0#16) ≠ romValue 0#16
end

