-- ==== Sys2Proof/Laws/State.lean ====
section
/-! SUPPORT. What each named update of State does to each field: one simp lemma per field per update. Below them, what the
updates do to the reads of State that are more than a field. -/

namespace Sys2Proof.Machine

variable (s : State)

/-! setBfx -/

@[simp] theorem State.setBfx_buf (p : Nat) (w : Window) (c : Nat) : (s.setBfx p w c).buf = s.buf := rfl
@[simp] theorem State.setBfx_size (p : Nat) (w : Window) (c : Nat) : (s.setBfx p w c).size = s.size := rfl
@[simp] theorem State.setBfx_start (p : Nat) (w : Window) (c : Nat) : (s.setBfx p w c).start = s.start := rfl
@[simp] theorem State.setBfx_len (p : Nat) (w : Window) (c : Nat) : (s.setBfx p w c).len = s.len := rfl
@[simp] theorem State.setBfx_vmaj (p : Nat) (w : Window) (c : Nat) : (s.setBfx p w c).vmaj = s.vmaj := rfl
@[simp] theorem State.setBfx_vmin (p : Nat) (w : Window) (c : Nat) : (s.setBfx p w c).vmin = s.vmin := rfl
@[simp] theorem State.setBfx_vminmin (p : Nat) (w : Window) (c : Nat) : (s.setBfx p w c).vminmin = s.vminmin := rfl
@[simp] theorem State.setBfx_params (p : Nat) (w : Window) (c : Nat) : (s.setBfx p w c).params = s.params := rfl
@[simp] theorem State.setBfx_p (p : Nat) (w : Window) (c : Nat) : (s.setBfx p w c).p = p := rfl
@[simp] theorem State.setBfx_w (p : Nat) (w : Window) (c : Nat) : (s.setBfx p w c).w = w := rfl
@[simp] theorem State.setBfx_c (p : Nat) (w : Window) (c : Nat) : (s.setBfx p w c).c = c := rfl
@[simp] theorem State.setBfx_cur (p : Nat) (w : Window) (c : Nat) : (s.setBfx p w c).cur = s.cur := rfl
@[simp] theorem State.setBfx_nxt (p : Nat) (w : Window) (c : Nat) : (s.setBfx p w c).nxt = s.nxt := rfl
@[simp] theorem State.setBfx_posTable (p : Nat) (w : Window) (c : Nat) : (s.setBfx p w c).posTable = s.posTable := rfl
@[simp] theorem State.setBfx_colTable (p : Nat) (w : Window) (c : Nat) : (s.setBfx p w c).colTable = s.colTable := rfl
@[simp] theorem State.setBfx_nrmTable (p : Nat) (w : Window) (c : Nat) : (s.setBfx p w c).nrmTable = s.nrmTable := rfl
@[simp] theorem State.setBfx_pos (p : Nat) (w : Window) (c : Nat) : (s.setBfx p w c).pos = s.pos := rfl
@[simp] theorem State.setBfx_color (p : Nat) (w : Window) (c : Nat) : (s.setBfx p w c).color = s.color := rfl
@[simp] theorem State.setBfx_alpha (p : Nat) (w : Window) (c : Nat) : (s.setBfx p w c).alpha = s.alpha := rfl
@[simp] theorem State.setBfx_normal (p : Nat) (w : Window) (c : Nat) : (s.setBfx p w c).normal = s.normal := rfl
@[simp] theorem State.setBfx_bn (p : Nat) (w : Window) (c : Nat) : (s.setBfx p w c).bn = s.bn := rfl
@[simp] theorem State.setBfx_bc (p : Nat) (w : Window) (c : Nat) : (s.setBfx p w c).bc = s.bc := rfl
@[simp] theorem State.setBfx_ba (p : Nat) (w : Window) (c : Nat) : (s.setBfx p w c).ba = s.ba := rfl
@[simp] theorem State.setBfx_useMn (p : Nat) (w : Window) (c : Nat) : (s.setBfx p w c).useMn = s.useMn := rfl
@[simp] theorem State.setBfx_useMc (p : Nat) (w : Window) (c : Nat) : (s.setBfx p w c).useMc = s.useMc := rfl
@[simp] theorem State.setBfx_rep (p : Nat) (w : Window) (c : Nat) : (s.setBfx p w c).rep = s.rep := rfl
@[simp] theorem State.setBfx_wi (p : Nat) (w : Window) (c : Nat) : (s.setBfx p w c).wi = s.wi := rfl
@[simp] theorem State.setBfx_vc (p : Nat) (w : Window) (c : Nat) : (s.setBfx p w c).vc = s.vc := rfl
@[simp] theorem State.setBfx_status (p : Nat) (w : Window) (c : Nat) : (s.setBfx p w c).status = s.status := rfl
@[simp] theorem State.setBfx_events (p : Nat) (w : Window) (c : Nat) : (s.setBfx p w c).events = s.events := rfl
@[simp] theorem State.setBfx_call (p : Nat) (w : Window) (c : Nat) : (s.setBfx p w c).call = s.call := rfl
@[simp] theorem State.setBfx_hostBuf (p : Nat) (w : Window) (c : Nat) : (s.setBfx p w c).hostBuf = s.hostBuf := rfl
@[simp] theorem State.setBfx_hostSize (p : Nat) (w : Window) (c : Nat) : (s.setBfx p w c).hostSize = s.hostSize := rfl
@[simp] theorem State.setBfx_unspecifiedCount (p : Nat) (w : Window) (c : Nat) :
    (s.setBfx p w c).unspecifiedCount = s.unspecifiedCount := rfl

/-! setCur -/

@[simp] theorem State.setCur_buf (v : Byte) : (s.setCur v).buf = s.buf := rfl
@[simp] theorem State.setCur_size (v : Byte) : (s.setCur v).size = s.size := rfl
@[simp] theorem State.setCur_start (v : Byte) : (s.setCur v).start = s.start := rfl
@[simp] theorem State.setCur_len (v : Byte) : (s.setCur v).len = s.len := rfl
@[simp] theorem State.setCur_vmaj (v : Byte) : (s.setCur v).vmaj = s.vmaj := rfl
@[simp] theorem State.setCur_vmin (v : Byte) : (s.setCur v).vmin = s.vmin := rfl
@[simp] theorem State.setCur_vminmin (v : Byte) : (s.setCur v).vminmin = s.vminmin := rfl
@[simp] theorem State.setCur_params (v : Byte) : (s.setCur v).params = s.params := rfl
@[simp] theorem State.setCur_p (v : Byte) : (s.setCur v).p = s.p := rfl
@[simp] theorem State.setCur_w (v : Byte) : (s.setCur v).w = s.w := rfl
@[simp] theorem State.setCur_c (v : Byte) : (s.setCur v).c = s.c := rfl
@[simp] theorem State.setCur_cur (v : Byte) : (s.setCur v).cur = v := rfl
@[simp] theorem State.setCur_nxt (v : Byte) : (s.setCur v).nxt = s.nxt := rfl
@[simp] theorem State.setCur_posTable (v : Byte) : (s.setCur v).posTable = s.posTable := rfl
@[simp] theorem State.setCur_colTable (v : Byte) : (s.setCur v).colTable = s.colTable := rfl
@[simp] theorem State.setCur_nrmTable (v : Byte) : (s.setCur v).nrmTable = s.nrmTable := rfl
@[simp] theorem State.setCur_pos (v : Byte) : (s.setCur v).pos = s.pos := rfl
@[simp] theorem State.setCur_color (v : Byte) : (s.setCur v).color = s.color := rfl
@[simp] theorem State.setCur_alpha (v : Byte) : (s.setCur v).alpha = s.alpha := rfl
@[simp] theorem State.setCur_normal (v : Byte) : (s.setCur v).normal = s.normal := rfl
@[simp] theorem State.setCur_bn (v : Byte) : (s.setCur v).bn = s.bn := rfl
@[simp] theorem State.setCur_bc (v : Byte) : (s.setCur v).bc = s.bc := rfl
@[simp] theorem State.setCur_ba (v : Byte) : (s.setCur v).ba = s.ba := rfl
@[simp] theorem State.setCur_useMn (v : Byte) : (s.setCur v).useMn = s.useMn := rfl
@[simp] theorem State.setCur_useMc (v : Byte) : (s.setCur v).useMc = s.useMc := rfl
@[simp] theorem State.setCur_rep (v : Byte) : (s.setCur v).rep = s.rep := rfl
@[simp] theorem State.setCur_wi (v : Byte) : (s.setCur v).wi = s.wi := rfl
@[simp] theorem State.setCur_vc (v : Byte) : (s.setCur v).vc = s.vc := rfl
@[simp] theorem State.setCur_status (v : Byte) : (s.setCur v).status = s.status := rfl
@[simp] theorem State.setCur_events (v : Byte) : (s.setCur v).events = s.events := rfl
@[simp] theorem State.setCur_call (v : Byte) : (s.setCur v).call = s.call := rfl
@[simp] theorem State.setCur_hostBuf (v : Byte) : (s.setCur v).hostBuf = s.hostBuf := rfl
@[simp] theorem State.setCur_hostSize (v : Byte) : (s.setCur v).hostSize = s.hostSize := rfl
@[simp] theorem State.setCur_unspecifiedCount (v : Byte) : (s.setCur v).unspecifiedCount = s.unspecifiedCount := rfl

/-! setNxt -/

@[simp] theorem State.setNxt_buf (v : Byte) : (s.setNxt v).buf = s.buf := rfl
@[simp] theorem State.setNxt_size (v : Byte) : (s.setNxt v).size = s.size := rfl
@[simp] theorem State.setNxt_start (v : Byte) : (s.setNxt v).start = s.start := rfl
@[simp] theorem State.setNxt_len (v : Byte) : (s.setNxt v).len = s.len := rfl
@[simp] theorem State.setNxt_vmaj (v : Byte) : (s.setNxt v).vmaj = s.vmaj := rfl
@[simp] theorem State.setNxt_vmin (v : Byte) : (s.setNxt v).vmin = s.vmin := rfl
@[simp] theorem State.setNxt_vminmin (v : Byte) : (s.setNxt v).vminmin = s.vminmin := rfl
@[simp] theorem State.setNxt_params (v : Byte) : (s.setNxt v).params = s.params := rfl
@[simp] theorem State.setNxt_p (v : Byte) : (s.setNxt v).p = s.p := rfl
@[simp] theorem State.setNxt_w (v : Byte) : (s.setNxt v).w = s.w := rfl
@[simp] theorem State.setNxt_c (v : Byte) : (s.setNxt v).c = s.c := rfl
@[simp] theorem State.setNxt_cur (v : Byte) : (s.setNxt v).cur = s.cur := rfl
@[simp] theorem State.setNxt_nxt (v : Byte) : (s.setNxt v).nxt = v := rfl
@[simp] theorem State.setNxt_posTable (v : Byte) : (s.setNxt v).posTable = s.posTable := rfl
@[simp] theorem State.setNxt_colTable (v : Byte) : (s.setNxt v).colTable = s.colTable := rfl
@[simp] theorem State.setNxt_nrmTable (v : Byte) : (s.setNxt v).nrmTable = s.nrmTable := rfl
@[simp] theorem State.setNxt_pos (v : Byte) : (s.setNxt v).pos = s.pos := rfl
@[simp] theorem State.setNxt_color (v : Byte) : (s.setNxt v).color = s.color := rfl
@[simp] theorem State.setNxt_alpha (v : Byte) : (s.setNxt v).alpha = s.alpha := rfl
@[simp] theorem State.setNxt_normal (v : Byte) : (s.setNxt v).normal = s.normal := rfl
@[simp] theorem State.setNxt_bn (v : Byte) : (s.setNxt v).bn = s.bn := rfl
@[simp] theorem State.setNxt_bc (v : Byte) : (s.setNxt v).bc = s.bc := rfl
@[simp] theorem State.setNxt_ba (v : Byte) : (s.setNxt v).ba = s.ba := rfl
@[simp] theorem State.setNxt_useMn (v : Byte) : (s.setNxt v).useMn = s.useMn := rfl
@[simp] theorem State.setNxt_useMc (v : Byte) : (s.setNxt v).useMc = s.useMc := rfl
@[simp] theorem State.setNxt_rep (v : Byte) : (s.setNxt v).rep = s.rep := rfl
@[simp] theorem State.setNxt_wi (v : Byte) : (s.setNxt v).wi = s.wi := rfl
@[simp] theorem State.setNxt_vc (v : Byte) : (s.setNxt v).vc = s.vc := rfl
@[simp] theorem State.setNxt_status (v : Byte) : (s.setNxt v).status = s.status := rfl
@[simp] theorem State.setNxt_events (v : Byte) : (s.setNxt v).events = s.events := rfl
@[simp] theorem State.setNxt_call (v : Byte) : (s.setNxt v).call = s.call := rfl
@[simp] theorem State.setNxt_hostBuf (v : Byte) : (s.setNxt v).hostBuf = s.hostBuf := rfl
@[simp] theorem State.setNxt_hostSize (v : Byte) : (s.setNxt v).hostSize = s.hostSize := rfl
@[simp] theorem State.setNxt_unspecifiedCount (v : Byte) : (s.setNxt v).unspecifiedCount = s.unspecifiedCount := rfl

/-! setPos -/

@[simp] theorem State.setPos_buf (v : Position) : (s.setPos v).buf = s.buf := rfl
@[simp] theorem State.setPos_size (v : Position) : (s.setPos v).size = s.size := rfl
@[simp] theorem State.setPos_start (v : Position) : (s.setPos v).start = s.start := rfl
@[simp] theorem State.setPos_len (v : Position) : (s.setPos v).len = s.len := rfl
@[simp] theorem State.setPos_vmaj (v : Position) : (s.setPos v).vmaj = s.vmaj := rfl
@[simp] theorem State.setPos_vmin (v : Position) : (s.setPos v).vmin = s.vmin := rfl
@[simp] theorem State.setPos_vminmin (v : Position) : (s.setPos v).vminmin = s.vminmin := rfl
@[simp] theorem State.setPos_params (v : Position) : (s.setPos v).params = s.params := rfl
@[simp] theorem State.setPos_p (v : Position) : (s.setPos v).p = s.p := rfl
@[simp] theorem State.setPos_w (v : Position) : (s.setPos v).w = s.w := rfl
@[simp] theorem State.setPos_c (v : Position) : (s.setPos v).c = s.c := rfl
@[simp] theorem State.setPos_cur (v : Position) : (s.setPos v).cur = s.cur := rfl
@[simp] theorem State.setPos_nxt (v : Position) : (s.setPos v).nxt = s.nxt := rfl
@[simp] theorem State.setPos_posTable (v : Position) : (s.setPos v).posTable = s.posTable := rfl
@[simp] theorem State.setPos_colTable (v : Position) : (s.setPos v).colTable = s.colTable := rfl
@[simp] theorem State.setPos_nrmTable (v : Position) : (s.setPos v).nrmTable = s.nrmTable := rfl
@[simp] theorem State.setPos_pos (v : Position) : (s.setPos v).pos = some v := rfl
@[simp] theorem State.setPos_color (v : Position) : (s.setPos v).color = s.color := rfl
@[simp] theorem State.setPos_alpha (v : Position) : (s.setPos v).alpha = s.alpha := rfl
@[simp] theorem State.setPos_normal (v : Position) : (s.setPos v).normal = s.normal := rfl
@[simp] theorem State.setPos_bn (v : Position) : (s.setPos v).bn = s.bn := rfl
@[simp] theorem State.setPos_bc (v : Position) : (s.setPos v).bc = s.bc := rfl
@[simp] theorem State.setPos_ba (v : Position) : (s.setPos v).ba = s.ba := rfl
@[simp] theorem State.setPos_useMn (v : Position) : (s.setPos v).useMn = s.useMn := rfl
@[simp] theorem State.setPos_useMc (v : Position) : (s.setPos v).useMc = s.useMc := rfl
@[simp] theorem State.setPos_rep (v : Position) : (s.setPos v).rep = s.rep := rfl
@[simp] theorem State.setPos_wi (v : Position) : (s.setPos v).wi = s.wi := rfl
@[simp] theorem State.setPos_vc (v : Position) : (s.setPos v).vc = s.vc := rfl
@[simp] theorem State.setPos_status (v : Position) : (s.setPos v).status = s.status := rfl
@[simp] theorem State.setPos_events (v : Position) : (s.setPos v).events = s.events := rfl
@[simp] theorem State.setPos_call (v : Position) : (s.setPos v).call = s.call := rfl
@[simp] theorem State.setPos_hostBuf (v : Position) : (s.setPos v).hostBuf = s.hostBuf := rfl
@[simp] theorem State.setPos_hostSize (v : Position) : (s.setPos v).hostSize = s.hostSize := rfl
@[simp] theorem State.setPos_unspecifiedCount (v : Position) :
    (s.setPos v).unspecifiedCount = s.unspecifiedCount := rfl

/-! setColor -/

@[simp] theorem State.setColor_buf (v : Color) : (s.setColor v).buf = s.buf := rfl
@[simp] theorem State.setColor_size (v : Color) : (s.setColor v).size = s.size := rfl
@[simp] theorem State.setColor_start (v : Color) : (s.setColor v).start = s.start := rfl
@[simp] theorem State.setColor_len (v : Color) : (s.setColor v).len = s.len := rfl
@[simp] theorem State.setColor_vmaj (v : Color) : (s.setColor v).vmaj = s.vmaj := rfl
@[simp] theorem State.setColor_vmin (v : Color) : (s.setColor v).vmin = s.vmin := rfl
@[simp] theorem State.setColor_vminmin (v : Color) : (s.setColor v).vminmin = s.vminmin := rfl
@[simp] theorem State.setColor_params (v : Color) : (s.setColor v).params = s.params := rfl
@[simp] theorem State.setColor_p (v : Color) : (s.setColor v).p = s.p := rfl
@[simp] theorem State.setColor_w (v : Color) : (s.setColor v).w = s.w := rfl
@[simp] theorem State.setColor_c (v : Color) : (s.setColor v).c = s.c := rfl
@[simp] theorem State.setColor_cur (v : Color) : (s.setColor v).cur = s.cur := rfl
@[simp] theorem State.setColor_nxt (v : Color) : (s.setColor v).nxt = s.nxt := rfl
@[simp] theorem State.setColor_posTable (v : Color) : (s.setColor v).posTable = s.posTable := rfl
@[simp] theorem State.setColor_colTable (v : Color) : (s.setColor v).colTable = s.colTable := rfl
@[simp] theorem State.setColor_nrmTable (v : Color) : (s.setColor v).nrmTable = s.nrmTable := rfl
@[simp] theorem State.setColor_pos (v : Color) : (s.setColor v).pos = s.pos := rfl
@[simp] theorem State.setColor_color (v : Color) : (s.setColor v).color = some v := rfl
@[simp] theorem State.setColor_alpha (v : Color) : (s.setColor v).alpha = s.alpha := rfl
@[simp] theorem State.setColor_normal (v : Color) : (s.setColor v).normal = s.normal := rfl
@[simp] theorem State.setColor_bn (v : Color) : (s.setColor v).bn = s.bn := rfl
@[simp] theorem State.setColor_bc (v : Color) : (s.setColor v).bc = s.bc := rfl
@[simp] theorem State.setColor_ba (v : Color) : (s.setColor v).ba = s.ba := rfl
@[simp] theorem State.setColor_useMn (v : Color) : (s.setColor v).useMn = s.useMn := rfl
@[simp] theorem State.setColor_useMc (v : Color) : (s.setColor v).useMc = s.useMc := rfl
@[simp] theorem State.setColor_rep (v : Color) : (s.setColor v).rep = s.rep := rfl
@[simp] theorem State.setColor_wi (v : Color) : (s.setColor v).wi = s.wi := rfl
@[simp] theorem State.setColor_vc (v : Color) : (s.setColor v).vc = s.vc := rfl
@[simp] theorem State.setColor_status (v : Color) : (s.setColor v).status = s.status := rfl
@[simp] theorem State.setColor_events (v : Color) : (s.setColor v).events = s.events := rfl
@[simp] theorem State.setColor_call (v : Color) : (s.setColor v).call = s.call := rfl
@[simp] theorem State.setColor_hostBuf (v : Color) : (s.setColor v).hostBuf = s.hostBuf := rfl
@[simp] theorem State.setColor_hostSize (v : Color) : (s.setColor v).hostSize = s.hostSize := rfl
@[simp] theorem State.setColor_unspecifiedCount (v : Color) :
    (s.setColor v).unspecifiedCount = s.unspecifiedCount := rfl

/-! setAlpha -/

@[simp] theorem State.setAlpha_buf (v : Word16) : (s.setAlpha v).buf = s.buf := rfl
@[simp] theorem State.setAlpha_size (v : Word16) : (s.setAlpha v).size = s.size := rfl
@[simp] theorem State.setAlpha_start (v : Word16) : (s.setAlpha v).start = s.start := rfl
@[simp] theorem State.setAlpha_len (v : Word16) : (s.setAlpha v).len = s.len := rfl
@[simp] theorem State.setAlpha_vmaj (v : Word16) : (s.setAlpha v).vmaj = s.vmaj := rfl
@[simp] theorem State.setAlpha_vmin (v : Word16) : (s.setAlpha v).vmin = s.vmin := rfl
@[simp] theorem State.setAlpha_vminmin (v : Word16) : (s.setAlpha v).vminmin = s.vminmin := rfl
@[simp] theorem State.setAlpha_params (v : Word16) : (s.setAlpha v).params = s.params := rfl
@[simp] theorem State.setAlpha_p (v : Word16) : (s.setAlpha v).p = s.p := rfl
@[simp] theorem State.setAlpha_w (v : Word16) : (s.setAlpha v).w = s.w := rfl
@[simp] theorem State.setAlpha_c (v : Word16) : (s.setAlpha v).c = s.c := rfl
@[simp] theorem State.setAlpha_cur (v : Word16) : (s.setAlpha v).cur = s.cur := rfl
@[simp] theorem State.setAlpha_nxt (v : Word16) : (s.setAlpha v).nxt = s.nxt := rfl
@[simp] theorem State.setAlpha_posTable (v : Word16) : (s.setAlpha v).posTable = s.posTable := rfl
@[simp] theorem State.setAlpha_colTable (v : Word16) : (s.setAlpha v).colTable = s.colTable := rfl
@[simp] theorem State.setAlpha_nrmTable (v : Word16) : (s.setAlpha v).nrmTable = s.nrmTable := rfl
@[simp] theorem State.setAlpha_pos (v : Word16) : (s.setAlpha v).pos = s.pos := rfl
@[simp] theorem State.setAlpha_color (v : Word16) : (s.setAlpha v).color = s.color := rfl
@[simp] theorem State.setAlpha_alpha (v : Word16) : (s.setAlpha v).alpha = some v := rfl
@[simp] theorem State.setAlpha_normal (v : Word16) : (s.setAlpha v).normal = s.normal := rfl
@[simp] theorem State.setAlpha_bn (v : Word16) : (s.setAlpha v).bn = s.bn := rfl
@[simp] theorem State.setAlpha_bc (v : Word16) : (s.setAlpha v).bc = s.bc := rfl
@[simp] theorem State.setAlpha_ba (v : Word16) : (s.setAlpha v).ba = s.ba := rfl
@[simp] theorem State.setAlpha_useMn (v : Word16) : (s.setAlpha v).useMn = s.useMn := rfl
@[simp] theorem State.setAlpha_useMc (v : Word16) : (s.setAlpha v).useMc = s.useMc := rfl
@[simp] theorem State.setAlpha_rep (v : Word16) : (s.setAlpha v).rep = s.rep := rfl
@[simp] theorem State.setAlpha_wi (v : Word16) : (s.setAlpha v).wi = s.wi := rfl
@[simp] theorem State.setAlpha_vc (v : Word16) : (s.setAlpha v).vc = s.vc := rfl
@[simp] theorem State.setAlpha_status (v : Word16) : (s.setAlpha v).status = s.status := rfl
@[simp] theorem State.setAlpha_events (v : Word16) : (s.setAlpha v).events = s.events := rfl
@[simp] theorem State.setAlpha_call (v : Word16) : (s.setAlpha v).call = s.call := rfl
@[simp] theorem State.setAlpha_hostBuf (v : Word16) : (s.setAlpha v).hostBuf = s.hostBuf := rfl
@[simp] theorem State.setAlpha_hostSize (v : Word16) : (s.setAlpha v).hostSize = s.hostSize := rfl
@[simp] theorem State.setAlpha_unspecifiedCount (v : Word16) :
    (s.setAlpha v).unspecifiedCount = s.unspecifiedCount := rfl

/-! setNormal -/

@[simp] theorem State.setNormal_buf (v : Normal) : (s.setNormal v).buf = s.buf := rfl
@[simp] theorem State.setNormal_size (v : Normal) : (s.setNormal v).size = s.size := rfl
@[simp] theorem State.setNormal_start (v : Normal) : (s.setNormal v).start = s.start := rfl
@[simp] theorem State.setNormal_len (v : Normal) : (s.setNormal v).len = s.len := rfl
@[simp] theorem State.setNormal_vmaj (v : Normal) : (s.setNormal v).vmaj = s.vmaj := rfl
@[simp] theorem State.setNormal_vmin (v : Normal) : (s.setNormal v).vmin = s.vmin := rfl
@[simp] theorem State.setNormal_vminmin (v : Normal) : (s.setNormal v).vminmin = s.vminmin := rfl
@[simp] theorem State.setNormal_params (v : Normal) : (s.setNormal v).params = s.params := rfl
@[simp] theorem State.setNormal_p (v : Normal) : (s.setNormal v).p = s.p := rfl
@[simp] theorem State.setNormal_w (v : Normal) : (s.setNormal v).w = s.w := rfl
@[simp] theorem State.setNormal_c (v : Normal) : (s.setNormal v).c = s.c := rfl
@[simp] theorem State.setNormal_cur (v : Normal) : (s.setNormal v).cur = s.cur := rfl
@[simp] theorem State.setNormal_nxt (v : Normal) : (s.setNormal v).nxt = s.nxt := rfl
@[simp] theorem State.setNormal_posTable (v : Normal) : (s.setNormal v).posTable = s.posTable := rfl
@[simp] theorem State.setNormal_colTable (v : Normal) : (s.setNormal v).colTable = s.colTable := rfl
@[simp] theorem State.setNormal_nrmTable (v : Normal) : (s.setNormal v).nrmTable = s.nrmTable := rfl
@[simp] theorem State.setNormal_pos (v : Normal) : (s.setNormal v).pos = s.pos := rfl
@[simp] theorem State.setNormal_color (v : Normal) : (s.setNormal v).color = s.color := rfl
@[simp] theorem State.setNormal_alpha (v : Normal) : (s.setNormal v).alpha = s.alpha := rfl
@[simp] theorem State.setNormal_normal (v : Normal) : (s.setNormal v).normal = some v := rfl
@[simp] theorem State.setNormal_bn (v : Normal) : (s.setNormal v).bn = s.bn := rfl
@[simp] theorem State.setNormal_bc (v : Normal) : (s.setNormal v).bc = s.bc := rfl
@[simp] theorem State.setNormal_ba (v : Normal) : (s.setNormal v).ba = s.ba := rfl
@[simp] theorem State.setNormal_useMn (v : Normal) : (s.setNormal v).useMn = s.useMn := rfl
@[simp] theorem State.setNormal_useMc (v : Normal) : (s.setNormal v).useMc = s.useMc := rfl
@[simp] theorem State.setNormal_rep (v : Normal) : (s.setNormal v).rep = s.rep := rfl
@[simp] theorem State.setNormal_wi (v : Normal) : (s.setNormal v).wi = s.wi := rfl
@[simp] theorem State.setNormal_vc (v : Normal) : (s.setNormal v).vc = s.vc := rfl
@[simp] theorem State.setNormal_status (v : Normal) : (s.setNormal v).status = s.status := rfl
@[simp] theorem State.setNormal_events (v : Normal) : (s.setNormal v).events = s.events := rfl
@[simp] theorem State.setNormal_call (v : Normal) : (s.setNormal v).call = s.call := rfl
@[simp] theorem State.setNormal_hostBuf (v : Normal) : (s.setNormal v).hostBuf = s.hostBuf := rfl
@[simp] theorem State.setNormal_hostSize (v : Normal) : (s.setNormal v).hostSize = s.hostSize := rfl
@[simp] theorem State.setNormal_unspecifiedCount (v : Normal) :
    (s.setNormal v).unspecifiedCount = s.unspecifiedCount := rfl

/-! setRep -/

@[simp] theorem State.setRep_buf (v : BitVec 2) : (s.setRep v).buf = s.buf := rfl
@[simp] theorem State.setRep_size (v : BitVec 2) : (s.setRep v).size = s.size := rfl
@[simp] theorem State.setRep_start (v : BitVec 2) : (s.setRep v).start = s.start := rfl
@[simp] theorem State.setRep_len (v : BitVec 2) : (s.setRep v).len = s.len := rfl
@[simp] theorem State.setRep_vmaj (v : BitVec 2) : (s.setRep v).vmaj = s.vmaj := rfl
@[simp] theorem State.setRep_vmin (v : BitVec 2) : (s.setRep v).vmin = s.vmin := rfl
@[simp] theorem State.setRep_vminmin (v : BitVec 2) : (s.setRep v).vminmin = s.vminmin := rfl
@[simp] theorem State.setRep_params (v : BitVec 2) : (s.setRep v).params = s.params := rfl
@[simp] theorem State.setRep_p (v : BitVec 2) : (s.setRep v).p = s.p := rfl
@[simp] theorem State.setRep_w (v : BitVec 2) : (s.setRep v).w = s.w := rfl
@[simp] theorem State.setRep_c (v : BitVec 2) : (s.setRep v).c = s.c := rfl
@[simp] theorem State.setRep_cur (v : BitVec 2) : (s.setRep v).cur = s.cur := rfl
@[simp] theorem State.setRep_nxt (v : BitVec 2) : (s.setRep v).nxt = s.nxt := rfl
@[simp] theorem State.setRep_posTable (v : BitVec 2) : (s.setRep v).posTable = s.posTable := rfl
@[simp] theorem State.setRep_colTable (v : BitVec 2) : (s.setRep v).colTable = s.colTable := rfl
@[simp] theorem State.setRep_nrmTable (v : BitVec 2) : (s.setRep v).nrmTable = s.nrmTable := rfl
@[simp] theorem State.setRep_pos (v : BitVec 2) : (s.setRep v).pos = s.pos := rfl
@[simp] theorem State.setRep_color (v : BitVec 2) : (s.setRep v).color = s.color := rfl
@[simp] theorem State.setRep_alpha (v : BitVec 2) : (s.setRep v).alpha = s.alpha := rfl
@[simp] theorem State.setRep_normal (v : BitVec 2) : (s.setRep v).normal = s.normal := rfl
@[simp] theorem State.setRep_bn (v : BitVec 2) : (s.setRep v).bn = s.bn := rfl
@[simp] theorem State.setRep_bc (v : BitVec 2) : (s.setRep v).bc = s.bc := rfl
@[simp] theorem State.setRep_ba (v : BitVec 2) : (s.setRep v).ba = s.ba := rfl
@[simp] theorem State.setRep_useMn (v : BitVec 2) : (s.setRep v).useMn = s.useMn := rfl
@[simp] theorem State.setRep_useMc (v : BitVec 2) : (s.setRep v).useMc = s.useMc := rfl
@[simp] theorem State.setRep_rep (v : BitVec 2) : (s.setRep v).rep = v := rfl
@[simp] theorem State.setRep_wi (v : BitVec 2) : (s.setRep v).wi = s.wi := rfl
@[simp] theorem State.setRep_vc (v : BitVec 2) : (s.setRep v).vc = s.vc := rfl
@[simp] theorem State.setRep_status (v : BitVec 2) : (s.setRep v).status = s.status := rfl
@[simp] theorem State.setRep_events (v : BitVec 2) : (s.setRep v).events = s.events := rfl
@[simp] theorem State.setRep_call (v : BitVec 2) : (s.setRep v).call = s.call := rfl
@[simp] theorem State.setRep_hostBuf (v : BitVec 2) : (s.setRep v).hostBuf = s.hostBuf := rfl
@[simp] theorem State.setRep_hostSize (v : BitVec 2) : (s.setRep v).hostSize = s.hostSize := rfl
@[simp] theorem State.setRep_unspecifiedCount (v : BitVec 2) :
    (s.setRep v).unspecifiedCount = s.unspecifiedCount := rfl

/-! setWi -/

@[simp] theorem State.setWi_buf (v : BitVec 4) : (s.setWi v).buf = s.buf := rfl
@[simp] theorem State.setWi_size (v : BitVec 4) : (s.setWi v).size = s.size := rfl
@[simp] theorem State.setWi_start (v : BitVec 4) : (s.setWi v).start = s.start := rfl
@[simp] theorem State.setWi_len (v : BitVec 4) : (s.setWi v).len = s.len := rfl
@[simp] theorem State.setWi_vmaj (v : BitVec 4) : (s.setWi v).vmaj = s.vmaj := rfl
@[simp] theorem State.setWi_vmin (v : BitVec 4) : (s.setWi v).vmin = s.vmin := rfl
@[simp] theorem State.setWi_vminmin (v : BitVec 4) : (s.setWi v).vminmin = s.vminmin := rfl
@[simp] theorem State.setWi_params (v : BitVec 4) : (s.setWi v).params = s.params := rfl
@[simp] theorem State.setWi_p (v : BitVec 4) : (s.setWi v).p = s.p := rfl
@[simp] theorem State.setWi_w (v : BitVec 4) : (s.setWi v).w = s.w := rfl
@[simp] theorem State.setWi_c (v : BitVec 4) : (s.setWi v).c = s.c := rfl
@[simp] theorem State.setWi_cur (v : BitVec 4) : (s.setWi v).cur = s.cur := rfl
@[simp] theorem State.setWi_nxt (v : BitVec 4) : (s.setWi v).nxt = s.nxt := rfl
@[simp] theorem State.setWi_posTable (v : BitVec 4) : (s.setWi v).posTable = s.posTable := rfl
@[simp] theorem State.setWi_colTable (v : BitVec 4) : (s.setWi v).colTable = s.colTable := rfl
@[simp] theorem State.setWi_nrmTable (v : BitVec 4) : (s.setWi v).nrmTable = s.nrmTable := rfl
@[simp] theorem State.setWi_pos (v : BitVec 4) : (s.setWi v).pos = s.pos := rfl
@[simp] theorem State.setWi_color (v : BitVec 4) : (s.setWi v).color = s.color := rfl
@[simp] theorem State.setWi_alpha (v : BitVec 4) : (s.setWi v).alpha = s.alpha := rfl
@[simp] theorem State.setWi_normal (v : BitVec 4) : (s.setWi v).normal = s.normal := rfl
@[simp] theorem State.setWi_bn (v : BitVec 4) : (s.setWi v).bn = s.bn := rfl
@[simp] theorem State.setWi_bc (v : BitVec 4) : (s.setWi v).bc = s.bc := rfl
@[simp] theorem State.setWi_ba (v : BitVec 4) : (s.setWi v).ba = s.ba := rfl
@[simp] theorem State.setWi_useMn (v : BitVec 4) : (s.setWi v).useMn = s.useMn := rfl
@[simp] theorem State.setWi_useMc (v : BitVec 4) : (s.setWi v).useMc = s.useMc := rfl
@[simp] theorem State.setWi_rep (v : BitVec 4) : (s.setWi v).rep = s.rep := rfl
@[simp] theorem State.setWi_wi (v : BitVec 4) : (s.setWi v).wi = v := rfl
@[simp] theorem State.setWi_vc (v : BitVec 4) : (s.setWi v).vc = s.vc := rfl
@[simp] theorem State.setWi_status (v : BitVec 4) : (s.setWi v).status = s.status := rfl
@[simp] theorem State.setWi_events (v : BitVec 4) : (s.setWi v).events = s.events := rfl
@[simp] theorem State.setWi_call (v : BitVec 4) : (s.setWi v).call = s.call := rfl
@[simp] theorem State.setWi_hostBuf (v : BitVec 4) : (s.setWi v).hostBuf = s.hostBuf := rfl
@[simp] theorem State.setWi_hostSize (v : BitVec 4) : (s.setWi v).hostSize = s.hostSize := rfl
@[simp] theorem State.setWi_unspecifiedCount (v : BitVec 4) : (s.setWi v).unspecifiedCount = s.unspecifiedCount := rfl

/-! setSlot -/

@[simp] theorem State.setSlot_buf (j : BitVec 4) (v : Slot) : (s.setSlot j v).buf = s.buf := rfl
@[simp] theorem State.setSlot_size (j : BitVec 4) (v : Slot) : (s.setSlot j v).size = s.size := rfl
@[simp] theorem State.setSlot_start (j : BitVec 4) (v : Slot) : (s.setSlot j v).start = s.start := rfl
@[simp] theorem State.setSlot_len (j : BitVec 4) (v : Slot) : (s.setSlot j v).len = s.len := rfl
@[simp] theorem State.setSlot_vmaj (j : BitVec 4) (v : Slot) : (s.setSlot j v).vmaj = s.vmaj := rfl
@[simp] theorem State.setSlot_vmin (j : BitVec 4) (v : Slot) : (s.setSlot j v).vmin = s.vmin := rfl
@[simp] theorem State.setSlot_vminmin (j : BitVec 4) (v : Slot) : (s.setSlot j v).vminmin = s.vminmin := rfl
@[simp] theorem State.setSlot_params (j : BitVec 4) (v : Slot) : (s.setSlot j v).params = s.params := rfl
@[simp] theorem State.setSlot_p (j : BitVec 4) (v : Slot) : (s.setSlot j v).p = s.p := rfl
@[simp] theorem State.setSlot_w (j : BitVec 4) (v : Slot) : (s.setSlot j v).w = s.w := rfl
@[simp] theorem State.setSlot_c (j : BitVec 4) (v : Slot) : (s.setSlot j v).c = s.c := rfl
@[simp] theorem State.setSlot_cur (j : BitVec 4) (v : Slot) : (s.setSlot j v).cur = s.cur := rfl
@[simp] theorem State.setSlot_nxt (j : BitVec 4) (v : Slot) : (s.setSlot j v).nxt = s.nxt := rfl
@[simp] theorem State.setSlot_posTable (j : BitVec 4) (v : Slot) : (s.setSlot j v).posTable = s.posTable := rfl
@[simp] theorem State.setSlot_colTable (j : BitVec 4) (v : Slot) : (s.setSlot j v).colTable = s.colTable := rfl
@[simp] theorem State.setSlot_nrmTable (j : BitVec 4) (v : Slot) : (s.setSlot j v).nrmTable = s.nrmTable := rfl
@[simp] theorem State.setSlot_pos (j : BitVec 4) (v : Slot) : (s.setSlot j v).pos = s.pos := rfl
@[simp] theorem State.setSlot_color (j : BitVec 4) (v : Slot) : (s.setSlot j v).color = s.color := rfl
@[simp] theorem State.setSlot_alpha (j : BitVec 4) (v : Slot) : (s.setSlot j v).alpha = s.alpha := rfl
@[simp] theorem State.setSlot_normal (j : BitVec 4) (v : Slot) : (s.setSlot j v).normal = s.normal := rfl
@[simp] theorem State.setSlot_bn (j : BitVec 4) (v : Slot) : (s.setSlot j v).bn = s.bn := rfl
@[simp] theorem State.setSlot_bc (j : BitVec 4) (v : Slot) : (s.setSlot j v).bc = s.bc := rfl
@[simp] theorem State.setSlot_ba (j : BitVec 4) (v : Slot) : (s.setSlot j v).ba = s.ba := rfl
@[simp] theorem State.setSlot_useMn (j : BitVec 4) (v : Slot) : (s.setSlot j v).useMn = s.useMn := rfl
@[simp] theorem State.setSlot_useMc (j : BitVec 4) (v : Slot) : (s.setSlot j v).useMc = s.useMc := rfl
@[simp] theorem State.setSlot_rep (j : BitVec 4) (v : Slot) : (s.setSlot j v).rep = s.rep := rfl
@[simp] theorem State.setSlot_wi (j : BitVec 4) (v : Slot) : (s.setSlot j v).wi = s.wi := rfl
@[simp] theorem State.setSlot_vc (j : BitVec 4) (v : Slot) :
    (s.setSlot j v).vc = s.vc.set j.toNat v (by have := j.isLt; omega) := rfl
@[simp] theorem State.setSlot_status (j : BitVec 4) (v : Slot) : (s.setSlot j v).status = s.status := rfl
@[simp] theorem State.setSlot_events (j : BitVec 4) (v : Slot) : (s.setSlot j v).events = s.events := rfl
@[simp] theorem State.setSlot_call (j : BitVec 4) (v : Slot) : (s.setSlot j v).call = s.call := rfl
@[simp] theorem State.setSlot_hostBuf (j : BitVec 4) (v : Slot) : (s.setSlot j v).hostBuf = s.hostBuf := rfl
@[simp] theorem State.setSlot_hostSize (j : BitVec 4) (v : Slot) : (s.setSlot j v).hostSize = s.hostSize := rfl
@[simp] theorem State.setSlot_unspecifiedCount (j : BitVec 4) (v : Slot) :
    (s.setSlot j v).unspecifiedCount = s.unspecifiedCount := rfl

/-! setStatus -/

@[simp] theorem State.setStatus_buf (v : Status) : (s.setStatus v).buf = s.buf := rfl
@[simp] theorem State.setStatus_size (v : Status) : (s.setStatus v).size = s.size := rfl
@[simp] theorem State.setStatus_start (v : Status) : (s.setStatus v).start = s.start := rfl
@[simp] theorem State.setStatus_len (v : Status) : (s.setStatus v).len = s.len := rfl
@[simp] theorem State.setStatus_vmaj (v : Status) : (s.setStatus v).vmaj = s.vmaj := rfl
@[simp] theorem State.setStatus_vmin (v : Status) : (s.setStatus v).vmin = s.vmin := rfl
@[simp] theorem State.setStatus_vminmin (v : Status) : (s.setStatus v).vminmin = s.vminmin := rfl
@[simp] theorem State.setStatus_params (v : Status) : (s.setStatus v).params = s.params := rfl
@[simp] theorem State.setStatus_p (v : Status) : (s.setStatus v).p = s.p := rfl
@[simp] theorem State.setStatus_w (v : Status) : (s.setStatus v).w = s.w := rfl
@[simp] theorem State.setStatus_c (v : Status) : (s.setStatus v).c = s.c := rfl
@[simp] theorem State.setStatus_cur (v : Status) : (s.setStatus v).cur = s.cur := rfl
@[simp] theorem State.setStatus_nxt (v : Status) : (s.setStatus v).nxt = s.nxt := rfl
@[simp] theorem State.setStatus_posTable (v : Status) : (s.setStatus v).posTable = s.posTable := rfl
@[simp] theorem State.setStatus_colTable (v : Status) : (s.setStatus v).colTable = s.colTable := rfl
@[simp] theorem State.setStatus_nrmTable (v : Status) : (s.setStatus v).nrmTable = s.nrmTable := rfl
@[simp] theorem State.setStatus_pos (v : Status) : (s.setStatus v).pos = s.pos := rfl
@[simp] theorem State.setStatus_color (v : Status) : (s.setStatus v).color = s.color := rfl
@[simp] theorem State.setStatus_alpha (v : Status) : (s.setStatus v).alpha = s.alpha := rfl
@[simp] theorem State.setStatus_normal (v : Status) : (s.setStatus v).normal = s.normal := rfl
@[simp] theorem State.setStatus_bn (v : Status) : (s.setStatus v).bn = s.bn := rfl
@[simp] theorem State.setStatus_bc (v : Status) : (s.setStatus v).bc = s.bc := rfl
@[simp] theorem State.setStatus_ba (v : Status) : (s.setStatus v).ba = s.ba := rfl
@[simp] theorem State.setStatus_useMn (v : Status) : (s.setStatus v).useMn = s.useMn := rfl
@[simp] theorem State.setStatus_useMc (v : Status) : (s.setStatus v).useMc = s.useMc := rfl
@[simp] theorem State.setStatus_rep (v : Status) : (s.setStatus v).rep = s.rep := rfl
@[simp] theorem State.setStatus_wi (v : Status) : (s.setStatus v).wi = s.wi := rfl
@[simp] theorem State.setStatus_vc (v : Status) : (s.setStatus v).vc = s.vc := rfl
@[simp] theorem State.setStatus_status (v : Status) : (s.setStatus v).status = v := rfl
@[simp] theorem State.setStatus_events (v : Status) : (s.setStatus v).events = s.events := rfl
@[simp] theorem State.setStatus_call (v : Status) : (s.setStatus v).call = s.call := rfl
@[simp] theorem State.setStatus_hostBuf (v : Status) : (s.setStatus v).hostBuf = s.hostBuf := rfl
@[simp] theorem State.setStatus_hostSize (v : Status) : (s.setStatus v).hostSize = s.hostSize := rfl
@[simp] theorem State.setStatus_unspecifiedCount (v : Status) :
    (s.setStatus v).unspecifiedCount = s.unspecifiedCount := rfl

/-! await -/

@[simp] theorem Status.betweenDecodes_done : Status.done.betweenDecodes = .idle := rfl
@[simp] theorem Status.betweenDecodes_idle : Status.idle.betweenDecodes = .idle := rfl
@[simp] theorem Status.betweenDecodes_run : Status.run.betweenDecodes = .run := rfl
@[simp] theorem Status.betweenDecodes_error (e : ErrorRecord) : (Status.error e).betweenDecodes = .error e := rfl

@[simp] theorem State.await_buf : s.await.buf = s.buf := rfl
@[simp] theorem State.await_size : s.await.size = s.size := rfl
@[simp] theorem State.await_start : s.await.start = s.start := rfl
@[simp] theorem State.await_len : s.await.len = s.len := rfl
@[simp] theorem State.await_vmaj : s.await.vmaj = s.vmaj := rfl
@[simp] theorem State.await_vmin : s.await.vmin = s.vmin := rfl
@[simp] theorem State.await_vminmin : s.await.vminmin = s.vminmin := rfl
@[simp] theorem State.await_params : s.await.params = s.params := rfl
@[simp] theorem State.await_p : s.await.p = s.p := rfl
@[simp] theorem State.await_w : s.await.w = s.w := rfl
@[simp] theorem State.await_c : s.await.c = s.c := rfl
@[simp] theorem State.await_cur : s.await.cur = s.cur := rfl
@[simp] theorem State.await_nxt : s.await.nxt = s.nxt := rfl
@[simp] theorem State.await_posTable : s.await.posTable = s.posTable := rfl
@[simp] theorem State.await_colTable : s.await.colTable = s.colTable := rfl
@[simp] theorem State.await_nrmTable : s.await.nrmTable = s.nrmTable := rfl
@[simp] theorem State.await_pos : s.await.pos = s.pos := rfl
@[simp] theorem State.await_color : s.await.color = s.color := rfl
@[simp] theorem State.await_alpha : s.await.alpha = s.alpha := rfl
@[simp] theorem State.await_normal : s.await.normal = s.normal := rfl
@[simp] theorem State.await_bn : s.await.bn = s.bn := rfl
@[simp] theorem State.await_bc : s.await.bc = s.bc := rfl
@[simp] theorem State.await_ba : s.await.ba = s.ba := rfl
@[simp] theorem State.await_useMn : s.await.useMn = s.useMn := rfl
@[simp] theorem State.await_useMc : s.await.useMc = s.useMc := rfl
@[simp] theorem State.await_rep : s.await.rep = s.rep := rfl
@[simp] theorem State.await_wi : s.await.wi = s.wi := rfl
@[simp] theorem State.await_vc : s.await.vc = s.vc := rfl
@[simp] theorem State.await_status : s.await.status = s.status.betweenDecodes := rfl
@[simp] theorem State.await_events : s.await.events = s.events := rfl
@[simp] theorem State.await_call : s.await.call = s.call := rfl
@[simp] theorem State.await_hostBuf : s.await.hostBuf = s.hostBuf := rfl
@[simp] theorem State.await_hostSize : s.await.hostSize = s.hostSize := rfl
@[simp] theorem State.await_unspecifiedCount : s.await.unspecifiedCount = s.unspecifiedCount := rfl

/-! emit -/

@[simp] theorem State.emit_buf (v : Event) : (s.emit v).buf = s.buf := rfl
@[simp] theorem State.emit_size (v : Event) : (s.emit v).size = s.size := rfl
@[simp] theorem State.emit_start (v : Event) : (s.emit v).start = s.start := rfl
@[simp] theorem State.emit_len (v : Event) : (s.emit v).len = s.len := rfl
@[simp] theorem State.emit_vmaj (v : Event) : (s.emit v).vmaj = s.vmaj := rfl
@[simp] theorem State.emit_vmin (v : Event) : (s.emit v).vmin = s.vmin := rfl
@[simp] theorem State.emit_vminmin (v : Event) : (s.emit v).vminmin = s.vminmin := rfl
@[simp] theorem State.emit_params (v : Event) : (s.emit v).params = s.params := rfl
@[simp] theorem State.emit_p (v : Event) : (s.emit v).p = s.p := rfl
@[simp] theorem State.emit_w (v : Event) : (s.emit v).w = s.w := rfl
@[simp] theorem State.emit_c (v : Event) : (s.emit v).c = s.c := rfl
@[simp] theorem State.emit_cur (v : Event) : (s.emit v).cur = s.cur := rfl
@[simp] theorem State.emit_nxt (v : Event) : (s.emit v).nxt = s.nxt := rfl
@[simp] theorem State.emit_posTable (v : Event) : (s.emit v).posTable = s.posTable := rfl
@[simp] theorem State.emit_colTable (v : Event) : (s.emit v).colTable = s.colTable := rfl
@[simp] theorem State.emit_nrmTable (v : Event) : (s.emit v).nrmTable = s.nrmTable := rfl
@[simp] theorem State.emit_pos (v : Event) : (s.emit v).pos = s.pos := rfl
@[simp] theorem State.emit_color (v : Event) : (s.emit v).color = s.color := rfl
@[simp] theorem State.emit_alpha (v : Event) : (s.emit v).alpha = s.alpha := rfl
@[simp] theorem State.emit_normal (v : Event) : (s.emit v).normal = s.normal := rfl
@[simp] theorem State.emit_bn (v : Event) : (s.emit v).bn = s.bn := rfl
@[simp] theorem State.emit_bc (v : Event) : (s.emit v).bc = s.bc := rfl
@[simp] theorem State.emit_ba (v : Event) : (s.emit v).ba = s.ba := rfl
@[simp] theorem State.emit_useMn (v : Event) : (s.emit v).useMn = s.useMn := rfl
@[simp] theorem State.emit_useMc (v : Event) : (s.emit v).useMc = s.useMc := rfl
@[simp] theorem State.emit_rep (v : Event) : (s.emit v).rep = s.rep := rfl
@[simp] theorem State.emit_wi (v : Event) : (s.emit v).wi = s.wi := rfl
@[simp] theorem State.emit_vc (v : Event) : (s.emit v).vc = s.vc := rfl
@[simp] theorem State.emit_status (v : Event) : (s.emit v).status = s.status := rfl
@[simp] theorem State.emit_events (v : Event) : (s.emit v).events = s.events ++ [v] := rfl
@[simp] theorem State.emit_call (v : Event) : (s.emit v).call = s.call := rfl
@[simp] theorem State.emit_hostBuf (v : Event) : (s.emit v).hostBuf = s.hostBuf := rfl
@[simp] theorem State.emit_hostSize (v : Event) : (s.emit v).hostSize = s.hostSize := rfl
@[simp] theorem State.emit_unspecifiedCount (v : Event) : (s.emit v).unspecifiedCount = s.unspecifiedCount := rfl

/-! setCall -/

@[simp] theorem State.setCall_buf (v : Option HostCall) : (s.setCall v).buf = s.buf := rfl
@[simp] theorem State.setCall_size (v : Option HostCall) : (s.setCall v).size = s.size := rfl
@[simp] theorem State.setCall_start (v : Option HostCall) : (s.setCall v).start = s.start := rfl
@[simp] theorem State.setCall_len (v : Option HostCall) : (s.setCall v).len = s.len := rfl
@[simp] theorem State.setCall_vmaj (v : Option HostCall) : (s.setCall v).vmaj = s.vmaj := rfl
@[simp] theorem State.setCall_vmin (v : Option HostCall) : (s.setCall v).vmin = s.vmin := rfl
@[simp] theorem State.setCall_vminmin (v : Option HostCall) : (s.setCall v).vminmin = s.vminmin := rfl
@[simp] theorem State.setCall_params (v : Option HostCall) : (s.setCall v).params = s.params := rfl
@[simp] theorem State.setCall_p (v : Option HostCall) : (s.setCall v).p = s.p := rfl
@[simp] theorem State.setCall_w (v : Option HostCall) : (s.setCall v).w = s.w := rfl
@[simp] theorem State.setCall_c (v : Option HostCall) : (s.setCall v).c = s.c := rfl
@[simp] theorem State.setCall_cur (v : Option HostCall) : (s.setCall v).cur = s.cur := rfl
@[simp] theorem State.setCall_nxt (v : Option HostCall) : (s.setCall v).nxt = s.nxt := rfl
@[simp] theorem State.setCall_posTable (v : Option HostCall) : (s.setCall v).posTable = s.posTable := rfl
@[simp] theorem State.setCall_colTable (v : Option HostCall) : (s.setCall v).colTable = s.colTable := rfl
@[simp] theorem State.setCall_nrmTable (v : Option HostCall) : (s.setCall v).nrmTable = s.nrmTable := rfl
@[simp] theorem State.setCall_pos (v : Option HostCall) : (s.setCall v).pos = s.pos := rfl
@[simp] theorem State.setCall_color (v : Option HostCall) : (s.setCall v).color = s.color := rfl
@[simp] theorem State.setCall_alpha (v : Option HostCall) : (s.setCall v).alpha = s.alpha := rfl
@[simp] theorem State.setCall_normal (v : Option HostCall) : (s.setCall v).normal = s.normal := rfl
@[simp] theorem State.setCall_bn (v : Option HostCall) : (s.setCall v).bn = s.bn := rfl
@[simp] theorem State.setCall_bc (v : Option HostCall) : (s.setCall v).bc = s.bc := rfl
@[simp] theorem State.setCall_ba (v : Option HostCall) : (s.setCall v).ba = s.ba := rfl
@[simp] theorem State.setCall_useMn (v : Option HostCall) : (s.setCall v).useMn = s.useMn := rfl
@[simp] theorem State.setCall_useMc (v : Option HostCall) : (s.setCall v).useMc = s.useMc := rfl
@[simp] theorem State.setCall_rep (v : Option HostCall) : (s.setCall v).rep = s.rep := rfl
@[simp] theorem State.setCall_wi (v : Option HostCall) : (s.setCall v).wi = s.wi := rfl
@[simp] theorem State.setCall_vc (v : Option HostCall) : (s.setCall v).vc = s.vc := rfl
@[simp] theorem State.setCall_status (v : Option HostCall) : (s.setCall v).status = s.status := rfl
@[simp] theorem State.setCall_events (v : Option HostCall) : (s.setCall v).events = s.events := rfl
@[simp] theorem State.setCall_call (v : Option HostCall) : (s.setCall v).call = v := rfl
@[simp] theorem State.setCall_hostBuf (v : Option HostCall) : (s.setCall v).hostBuf = s.hostBuf := rfl
@[simp] theorem State.setCall_hostSize (v : Option HostCall) : (s.setCall v).hostSize = s.hostSize := rfl
@[simp] theorem State.setCall_unspecifiedCount (v : Option HostCall) :
    (s.setCall v).unspecifiedCount = s.unspecifiedCount := rfl

/-! setBundling -/

@[simp] theorem State.setBundling_buf (bn bc ba : Bool) : (s.setBundling bn bc ba).buf = s.buf := rfl
@[simp] theorem State.setBundling_size (bn bc ba : Bool) : (s.setBundling bn bc ba).size = s.size := rfl
@[simp] theorem State.setBundling_start (bn bc ba : Bool) : (s.setBundling bn bc ba).start = s.start := rfl
@[simp] theorem State.setBundling_len (bn bc ba : Bool) : (s.setBundling bn bc ba).len = s.len := rfl
@[simp] theorem State.setBundling_vmaj (bn bc ba : Bool) : (s.setBundling bn bc ba).vmaj = s.vmaj := rfl
@[simp] theorem State.setBundling_vmin (bn bc ba : Bool) : (s.setBundling bn bc ba).vmin = s.vmin := rfl
@[simp] theorem State.setBundling_vminmin (bn bc ba : Bool) : (s.setBundling bn bc ba).vminmin = s.vminmin := rfl
@[simp] theorem State.setBundling_params (bn bc ba : Bool) : (s.setBundling bn bc ba).params = s.params := rfl
@[simp] theorem State.setBundling_p (bn bc ba : Bool) : (s.setBundling bn bc ba).p = s.p := rfl
@[simp] theorem State.setBundling_w (bn bc ba : Bool) : (s.setBundling bn bc ba).w = s.w := rfl
@[simp] theorem State.setBundling_c (bn bc ba : Bool) : (s.setBundling bn bc ba).c = s.c := rfl
@[simp] theorem State.setBundling_cur (bn bc ba : Bool) : (s.setBundling bn bc ba).cur = s.cur := rfl
@[simp] theorem State.setBundling_nxt (bn bc ba : Bool) : (s.setBundling bn bc ba).nxt = s.nxt := rfl
@[simp] theorem State.setBundling_posTable (bn bc ba : Bool) : (s.setBundling bn bc ba).posTable = s.posTable := rfl
@[simp] theorem State.setBundling_colTable (bn bc ba : Bool) : (s.setBundling bn bc ba).colTable = s.colTable := rfl
@[simp] theorem State.setBundling_nrmTable (bn bc ba : Bool) : (s.setBundling bn bc ba).nrmTable = s.nrmTable := rfl
@[simp] theorem State.setBundling_pos (bn bc ba : Bool) : (s.setBundling bn bc ba).pos = s.pos := rfl
@[simp] theorem State.setBundling_color (bn bc ba : Bool) : (s.setBundling bn bc ba).color = s.color := rfl
@[simp] theorem State.setBundling_alpha (bn bc ba : Bool) : (s.setBundling bn bc ba).alpha = s.alpha := rfl
@[simp] theorem State.setBundling_normal (bn bc ba : Bool) : (s.setBundling bn bc ba).normal = s.normal := rfl
@[simp] theorem State.setBundling_bn (bn bc ba : Bool) : (s.setBundling bn bc ba).bn = bn := rfl
@[simp] theorem State.setBundling_bc (bn bc ba : Bool) : (s.setBundling bn bc ba).bc = bc := rfl
@[simp] theorem State.setBundling_ba (bn bc ba : Bool) : (s.setBundling bn bc ba).ba = ba := rfl
@[simp] theorem State.setBundling_useMn (bn bc ba : Bool) : (s.setBundling bn bc ba).useMn = s.useMn := rfl
@[simp] theorem State.setBundling_useMc (bn bc ba : Bool) : (s.setBundling bn bc ba).useMc = s.useMc := rfl
@[simp] theorem State.setBundling_rep (bn bc ba : Bool) : (s.setBundling bn bc ba).rep = s.rep := rfl
@[simp] theorem State.setBundling_wi (bn bc ba : Bool) : (s.setBundling bn bc ba).wi = s.wi := rfl
@[simp] theorem State.setBundling_vc (bn bc ba : Bool) : (s.setBundling bn bc ba).vc = s.vc := rfl
@[simp] theorem State.setBundling_status (bn bc ba : Bool) : (s.setBundling bn bc ba).status = s.status := rfl
@[simp] theorem State.setBundling_events (bn bc ba : Bool) : (s.setBundling bn bc ba).events = s.events := rfl
@[simp] theorem State.setBundling_call (bn bc ba : Bool) : (s.setBundling bn bc ba).call = s.call := rfl
@[simp] theorem State.setBundling_hostBuf (bn bc ba : Bool) : (s.setBundling bn bc ba).hostBuf = s.hostBuf := rfl
@[simp] theorem State.setBundling_hostSize (bn bc ba : Bool) : (s.setBundling bn bc ba).hostSize = s.hostSize := rfl
@[simp] theorem State.setBundling_unspecifiedCount (bn bc ba : Bool) :
    (s.setBundling bn bc ba).unspecifiedCount = s.unspecifiedCount := rfl

/-! clearUseMn -/

@[simp] theorem State.clearUseMn_buf : s.clearUseMn.buf = s.buf := rfl
@[simp] theorem State.clearUseMn_size : s.clearUseMn.size = s.size := rfl
@[simp] theorem State.clearUseMn_start : s.clearUseMn.start = s.start := rfl
@[simp] theorem State.clearUseMn_len : s.clearUseMn.len = s.len := rfl
@[simp] theorem State.clearUseMn_vmaj : s.clearUseMn.vmaj = s.vmaj := rfl
@[simp] theorem State.clearUseMn_vmin : s.clearUseMn.vmin = s.vmin := rfl
@[simp] theorem State.clearUseMn_vminmin : s.clearUseMn.vminmin = s.vminmin := rfl
@[simp] theorem State.clearUseMn_params : s.clearUseMn.params = s.params := rfl
@[simp] theorem State.clearUseMn_p : s.clearUseMn.p = s.p := rfl
@[simp] theorem State.clearUseMn_w : s.clearUseMn.w = s.w := rfl
@[simp] theorem State.clearUseMn_c : s.clearUseMn.c = s.c := rfl
@[simp] theorem State.clearUseMn_cur : s.clearUseMn.cur = s.cur := rfl
@[simp] theorem State.clearUseMn_nxt : s.clearUseMn.nxt = s.nxt := rfl
@[simp] theorem State.clearUseMn_posTable : s.clearUseMn.posTable = s.posTable := rfl
@[simp] theorem State.clearUseMn_colTable : s.clearUseMn.colTable = s.colTable := rfl
@[simp] theorem State.clearUseMn_nrmTable : s.clearUseMn.nrmTable = s.nrmTable := rfl
@[simp] theorem State.clearUseMn_pos : s.clearUseMn.pos = s.pos := rfl
@[simp] theorem State.clearUseMn_color : s.clearUseMn.color = s.color := rfl
@[simp] theorem State.clearUseMn_alpha : s.clearUseMn.alpha = s.alpha := rfl
@[simp] theorem State.clearUseMn_normal : s.clearUseMn.normal = s.normal := rfl
@[simp] theorem State.clearUseMn_bn : s.clearUseMn.bn = s.bn := rfl
@[simp] theorem State.clearUseMn_bc : s.clearUseMn.bc = s.bc := rfl
@[simp] theorem State.clearUseMn_ba : s.clearUseMn.ba = s.ba := rfl
@[simp] theorem State.clearUseMn_useMn : s.clearUseMn.useMn = false := rfl
@[simp] theorem State.clearUseMn_useMc : s.clearUseMn.useMc = s.useMc := rfl
@[simp] theorem State.clearUseMn_rep : s.clearUseMn.rep = s.rep := rfl
@[simp] theorem State.clearUseMn_wi : s.clearUseMn.wi = s.wi := rfl
@[simp] theorem State.clearUseMn_vc : s.clearUseMn.vc = s.vc := rfl
@[simp] theorem State.clearUseMn_status : s.clearUseMn.status = s.status := rfl
@[simp] theorem State.clearUseMn_events : s.clearUseMn.events = s.events := rfl
@[simp] theorem State.clearUseMn_call : s.clearUseMn.call = s.call := rfl
@[simp] theorem State.clearUseMn_hostBuf : s.clearUseMn.hostBuf = s.hostBuf := rfl
@[simp] theorem State.clearUseMn_hostSize : s.clearUseMn.hostSize = s.hostSize := rfl
@[simp] theorem State.clearUseMn_unspecifiedCount : s.clearUseMn.unspecifiedCount = s.unspecifiedCount := rfl

/-! clearUseMc -/

@[simp] theorem State.clearUseMc_buf : s.clearUseMc.buf = s.buf := rfl
@[simp] theorem State.clearUseMc_size : s.clearUseMc.size = s.size := rfl
@[simp] theorem State.clearUseMc_start : s.clearUseMc.start = s.start := rfl
@[simp] theorem State.clearUseMc_len : s.clearUseMc.len = s.len := rfl
@[simp] theorem State.clearUseMc_vmaj : s.clearUseMc.vmaj = s.vmaj := rfl
@[simp] theorem State.clearUseMc_vmin : s.clearUseMc.vmin = s.vmin := rfl
@[simp] theorem State.clearUseMc_vminmin : s.clearUseMc.vminmin = s.vminmin := rfl
@[simp] theorem State.clearUseMc_params : s.clearUseMc.params = s.params := rfl
@[simp] theorem State.clearUseMc_p : s.clearUseMc.p = s.p := rfl
@[simp] theorem State.clearUseMc_w : s.clearUseMc.w = s.w := rfl
@[simp] theorem State.clearUseMc_c : s.clearUseMc.c = s.c := rfl
@[simp] theorem State.clearUseMc_cur : s.clearUseMc.cur = s.cur := rfl
@[simp] theorem State.clearUseMc_nxt : s.clearUseMc.nxt = s.nxt := rfl
@[simp] theorem State.clearUseMc_posTable : s.clearUseMc.posTable = s.posTable := rfl
@[simp] theorem State.clearUseMc_colTable : s.clearUseMc.colTable = s.colTable := rfl
@[simp] theorem State.clearUseMc_nrmTable : s.clearUseMc.nrmTable = s.nrmTable := rfl
@[simp] theorem State.clearUseMc_pos : s.clearUseMc.pos = s.pos := rfl
@[simp] theorem State.clearUseMc_color : s.clearUseMc.color = s.color := rfl
@[simp] theorem State.clearUseMc_alpha : s.clearUseMc.alpha = s.alpha := rfl
@[simp] theorem State.clearUseMc_normal : s.clearUseMc.normal = s.normal := rfl
@[simp] theorem State.clearUseMc_bn : s.clearUseMc.bn = s.bn := rfl
@[simp] theorem State.clearUseMc_bc : s.clearUseMc.bc = s.bc := rfl
@[simp] theorem State.clearUseMc_ba : s.clearUseMc.ba = s.ba := rfl
@[simp] theorem State.clearUseMc_useMn : s.clearUseMc.useMn = s.useMn := rfl
@[simp] theorem State.clearUseMc_useMc : s.clearUseMc.useMc = false := rfl
@[simp] theorem State.clearUseMc_rep : s.clearUseMc.rep = s.rep := rfl
@[simp] theorem State.clearUseMc_wi : s.clearUseMc.wi = s.wi := rfl
@[simp] theorem State.clearUseMc_vc : s.clearUseMc.vc = s.vc := rfl
@[simp] theorem State.clearUseMc_status : s.clearUseMc.status = s.status := rfl
@[simp] theorem State.clearUseMc_events : s.clearUseMc.events = s.events := rfl
@[simp] theorem State.clearUseMc_call : s.clearUseMc.call = s.call := rfl
@[simp] theorem State.clearUseMc_hostBuf : s.clearUseMc.hostBuf = s.hostBuf := rfl
@[simp] theorem State.clearUseMc_hostSize : s.clearUseMc.hostSize = s.hostSize := rfl
@[simp] theorem State.clearUseMc_unspecifiedCount : s.clearUseMc.unspecifiedCount = s.unspecifiedCount := rfl

/-! clearMeshUse -/

@[simp] theorem State.clearMeshUse_buf : s.clearMeshUse.buf = s.buf := rfl
@[simp] theorem State.clearMeshUse_size : s.clearMeshUse.size = s.size := rfl
@[simp] theorem State.clearMeshUse_start : s.clearMeshUse.start = s.start := rfl
@[simp] theorem State.clearMeshUse_len : s.clearMeshUse.len = s.len := rfl
@[simp] theorem State.clearMeshUse_vmaj : s.clearMeshUse.vmaj = s.vmaj := rfl
@[simp] theorem State.clearMeshUse_vmin : s.clearMeshUse.vmin = s.vmin := rfl
@[simp] theorem State.clearMeshUse_vminmin : s.clearMeshUse.vminmin = s.vminmin := rfl
@[simp] theorem State.clearMeshUse_params : s.clearMeshUse.params = s.params := rfl
@[simp] theorem State.clearMeshUse_p : s.clearMeshUse.p = s.p := rfl
@[simp] theorem State.clearMeshUse_w : s.clearMeshUse.w = s.w := rfl
@[simp] theorem State.clearMeshUse_c : s.clearMeshUse.c = s.c := rfl
@[simp] theorem State.clearMeshUse_cur : s.clearMeshUse.cur = s.cur := rfl
@[simp] theorem State.clearMeshUse_nxt : s.clearMeshUse.nxt = s.nxt := rfl
@[simp] theorem State.clearMeshUse_posTable : s.clearMeshUse.posTable = s.posTable := rfl
@[simp] theorem State.clearMeshUse_colTable : s.clearMeshUse.colTable = s.colTable := rfl
@[simp] theorem State.clearMeshUse_nrmTable : s.clearMeshUse.nrmTable = s.nrmTable := rfl
@[simp] theorem State.clearMeshUse_pos : s.clearMeshUse.pos = s.pos := rfl
@[simp] theorem State.clearMeshUse_color : s.clearMeshUse.color = s.color := rfl
@[simp] theorem State.clearMeshUse_alpha : s.clearMeshUse.alpha = s.alpha := rfl
@[simp] theorem State.clearMeshUse_normal : s.clearMeshUse.normal = s.normal := rfl
@[simp] theorem State.clearMeshUse_bn : s.clearMeshUse.bn = s.bn := rfl
@[simp] theorem State.clearMeshUse_bc : s.clearMeshUse.bc = s.bc := rfl
@[simp] theorem State.clearMeshUse_ba : s.clearMeshUse.ba = s.ba := rfl
@[simp] theorem State.clearMeshUse_useMn : s.clearMeshUse.useMn = false := rfl
@[simp] theorem State.clearMeshUse_useMc : s.clearMeshUse.useMc = false := rfl
@[simp] theorem State.clearMeshUse_rep : s.clearMeshUse.rep = s.rep := rfl
@[simp] theorem State.clearMeshUse_wi : s.clearMeshUse.wi = s.wi := rfl
@[simp] theorem State.clearMeshUse_vc : s.clearMeshUse.vc = s.vc := rfl
@[simp] theorem State.clearMeshUse_status : s.clearMeshUse.status = s.status := rfl
@[simp] theorem State.clearMeshUse_events : s.clearMeshUse.events = s.events := rfl
@[simp] theorem State.clearMeshUse_call : s.clearMeshUse.call = s.call := rfl
@[simp] theorem State.clearMeshUse_hostBuf : s.clearMeshUse.hostBuf = s.hostBuf := rfl
@[simp] theorem State.clearMeshUse_hostSize : s.clearMeshUse.hostSize = s.hostSize := rfl
@[simp] theorem State.clearMeshUse_unspecifiedCount : s.clearMeshUse.unspecifiedCount = s.unspecifiedCount := rfl

/-! setMeshUse -/

@[simp] theorem State.setMeshUse_buf : s.setMeshUse.buf = s.buf := rfl
@[simp] theorem State.setMeshUse_size : s.setMeshUse.size = s.size := rfl
@[simp] theorem State.setMeshUse_start : s.setMeshUse.start = s.start := rfl
@[simp] theorem State.setMeshUse_len : s.setMeshUse.len = s.len := rfl
@[simp] theorem State.setMeshUse_vmaj : s.setMeshUse.vmaj = s.vmaj := rfl
@[simp] theorem State.setMeshUse_vmin : s.setMeshUse.vmin = s.vmin := rfl
@[simp] theorem State.setMeshUse_vminmin : s.setMeshUse.vminmin = s.vminmin := rfl
@[simp] theorem State.setMeshUse_params : s.setMeshUse.params = s.params := rfl
@[simp] theorem State.setMeshUse_p : s.setMeshUse.p = s.p := rfl
@[simp] theorem State.setMeshUse_w : s.setMeshUse.w = s.w := rfl
@[simp] theorem State.setMeshUse_c : s.setMeshUse.c = s.c := rfl
@[simp] theorem State.setMeshUse_cur : s.setMeshUse.cur = s.cur := rfl
@[simp] theorem State.setMeshUse_nxt : s.setMeshUse.nxt = s.nxt := rfl
@[simp] theorem State.setMeshUse_posTable : s.setMeshUse.posTable = s.posTable := rfl
@[simp] theorem State.setMeshUse_colTable : s.setMeshUse.colTable = s.colTable := rfl
@[simp] theorem State.setMeshUse_nrmTable : s.setMeshUse.nrmTable = s.nrmTable := rfl
@[simp] theorem State.setMeshUse_pos : s.setMeshUse.pos = s.pos := rfl
@[simp] theorem State.setMeshUse_color : s.setMeshUse.color = s.color := rfl
@[simp] theorem State.setMeshUse_alpha : s.setMeshUse.alpha = s.alpha := rfl
@[simp] theorem State.setMeshUse_normal : s.setMeshUse.normal = s.normal := rfl
@[simp] theorem State.setMeshUse_bn : s.setMeshUse.bn = s.bn := rfl
@[simp] theorem State.setMeshUse_bc : s.setMeshUse.bc = s.bc := rfl
@[simp] theorem State.setMeshUse_ba : s.setMeshUse.ba = s.ba := rfl
@[simp] theorem State.setMeshUse_useMn : s.setMeshUse.useMn = true := rfl
@[simp] theorem State.setMeshUse_useMc : s.setMeshUse.useMc = true := rfl
@[simp] theorem State.setMeshUse_rep : s.setMeshUse.rep = s.rep := rfl
@[simp] theorem State.setMeshUse_wi : s.setMeshUse.wi = s.wi := rfl
@[simp] theorem State.setMeshUse_vc : s.setMeshUse.vc = s.vc := rfl
@[simp] theorem State.setMeshUse_status : s.setMeshUse.status = s.status := rfl
@[simp] theorem State.setMeshUse_events : s.setMeshUse.events = s.events := rfl
@[simp] theorem State.setMeshUse_call : s.setMeshUse.call = s.call := rfl
@[simp] theorem State.setMeshUse_hostBuf : s.setMeshUse.hostBuf = s.hostBuf := rfl
@[simp] theorem State.setMeshUse_hostSize : s.setMeshUse.hostSize = s.hostSize := rfl
@[simp] theorem State.setMeshUse_unspecifiedCount : s.setMeshUse.unspecifiedCount = s.unspecifiedCount := rfl

/-! pushPosition -/

@[simp] theorem State.pushPosition_buf : s.pushPosition.buf = s.buf := rfl
@[simp] theorem State.pushPosition_size : s.pushPosition.size = s.size := rfl
@[simp] theorem State.pushPosition_start : s.pushPosition.start = s.start := rfl
@[simp] theorem State.pushPosition_len : s.pushPosition.len = s.len := rfl
@[simp] theorem State.pushPosition_vmaj : s.pushPosition.vmaj = s.vmaj := rfl
@[simp] theorem State.pushPosition_vmin : s.pushPosition.vmin = s.vmin := rfl
@[simp] theorem State.pushPosition_vminmin : s.pushPosition.vminmin = s.vminmin := rfl
@[simp] theorem State.pushPosition_params : s.pushPosition.params = s.params := rfl
@[simp] theorem State.pushPosition_p : s.pushPosition.p = s.p := rfl
@[simp] theorem State.pushPosition_w : s.pushPosition.w = s.w := rfl
@[simp] theorem State.pushPosition_c : s.pushPosition.c = s.c := rfl
@[simp] theorem State.pushPosition_cur : s.pushPosition.cur = s.cur := rfl
@[simp] theorem State.pushPosition_nxt : s.pushPosition.nxt = s.nxt := rfl
@[simp] theorem State.pushPosition_posTable : s.pushPosition.posTable = s.posTable := rfl
@[simp] theorem State.pushPosition_colTable : s.pushPosition.colTable = s.colTable := rfl
@[simp] theorem State.pushPosition_nrmTable : s.pushPosition.nrmTable = s.nrmTable := rfl
@[simp] theorem State.pushPosition_pos : s.pushPosition.pos = s.pos := rfl
@[simp] theorem State.pushPosition_color : s.pushPosition.color = s.color := rfl
@[simp] theorem State.pushPosition_alpha : s.pushPosition.alpha = s.alpha := rfl
@[simp] theorem State.pushPosition_normal : s.pushPosition.normal = s.normal := rfl
@[simp] theorem State.pushPosition_bn : s.pushPosition.bn = s.bn := rfl
@[simp] theorem State.pushPosition_bc : s.pushPosition.bc = s.bc := rfl
@[simp] theorem State.pushPosition_ba : s.pushPosition.ba = s.ba := rfl
@[simp] theorem State.pushPosition_useMn : s.pushPosition.useMn = s.useMn := rfl
@[simp] theorem State.pushPosition_useMc : s.pushPosition.useMc = s.useMc := rfl
@[simp] theorem State.pushPosition_rep : s.pushPosition.rep = s.rep := rfl
@[simp] theorem State.pushPosition_wi : s.pushPosition.wi = s.wi + 1 := rfl
@[simp] theorem State.pushPosition_vc :
    s.pushPosition.vc = ((s.setWi (s.wi + 1)).setSlot (s.wi + 1) { s.slot (s.wi + 1) with pos := s.pos }).vc := rfl
@[simp] theorem State.pushPosition_status : s.pushPosition.status = s.status := rfl
@[simp] theorem State.pushPosition_events : s.pushPosition.events = s.events := rfl
@[simp] theorem State.pushPosition_call : s.pushPosition.call = s.call := rfl
@[simp] theorem State.pushPosition_hostBuf : s.pushPosition.hostBuf = s.hostBuf := rfl
@[simp] theorem State.pushPosition_hostSize : s.pushPosition.hostSize = s.hostSize := rfl
@[simp] theorem State.pushPosition_unspecifiedCount : s.pushPosition.unspecifiedCount = s.unspecifiedCount := rfl

/-! supplyArray -/

@[simp] theorem State.supplyArray_buf (array : Option (List Byte)) : (s.supplyArray array).buf = s.buf := rfl
@[simp] theorem State.supplyArray_size (array : Option (List Byte)) : (s.supplyArray array).size = s.size := rfl
@[simp] theorem State.supplyArray_start (array : Option (List Byte)) : (s.supplyArray array).start = s.start := rfl
@[simp] theorem State.supplyArray_len (array : Option (List Byte)) : (s.supplyArray array).len = s.len := rfl
@[simp] theorem State.supplyArray_vmaj (array : Option (List Byte)) : (s.supplyArray array).vmaj = s.vmaj := rfl
@[simp] theorem State.supplyArray_vmin (array : Option (List Byte)) : (s.supplyArray array).vmin = s.vmin := rfl
@[simp] theorem State.supplyArray_vminmin (array : Option (List Byte)) :
    (s.supplyArray array).vminmin = s.vminmin := rfl
@[simp] theorem State.supplyArray_params (array : Option (List Byte)) : (s.supplyArray array).params = s.params := rfl
@[simp] theorem State.supplyArray_p (array : Option (List Byte)) : (s.supplyArray array).p = s.p := rfl
@[simp] theorem State.supplyArray_w (array : Option (List Byte)) : (s.supplyArray array).w = s.w := rfl
@[simp] theorem State.supplyArray_c (array : Option (List Byte)) : (s.supplyArray array).c = s.c := rfl
@[simp] theorem State.supplyArray_cur (array : Option (List Byte)) : (s.supplyArray array).cur = s.cur := rfl
@[simp] theorem State.supplyArray_nxt (array : Option (List Byte)) : (s.supplyArray array).nxt = s.nxt := rfl
@[simp] theorem State.supplyArray_posTable (array : Option (List Byte)) :
    (s.supplyArray array).posTable = s.posTable := rfl
@[simp] theorem State.supplyArray_colTable (array : Option (List Byte)) :
    (s.supplyArray array).colTable = s.colTable := rfl
@[simp] theorem State.supplyArray_nrmTable (array : Option (List Byte)) :
    (s.supplyArray array).nrmTable = s.nrmTable := rfl
@[simp] theorem State.supplyArray_pos (array : Option (List Byte)) : (s.supplyArray array).pos = s.pos := rfl
@[simp] theorem State.supplyArray_color (array : Option (List Byte)) : (s.supplyArray array).color = s.color := rfl
@[simp] theorem State.supplyArray_alpha (array : Option (List Byte)) : (s.supplyArray array).alpha = s.alpha := rfl
@[simp] theorem State.supplyArray_normal (array : Option (List Byte)) : (s.supplyArray array).normal = s.normal := rfl
@[simp] theorem State.supplyArray_bn (array : Option (List Byte)) : (s.supplyArray array).bn = s.bn := rfl
@[simp] theorem State.supplyArray_bc (array : Option (List Byte)) : (s.supplyArray array).bc = s.bc := rfl
@[simp] theorem State.supplyArray_ba (array : Option (List Byte)) : (s.supplyArray array).ba = s.ba := rfl
@[simp] theorem State.supplyArray_useMn (array : Option (List Byte)) : (s.supplyArray array).useMn = s.useMn := rfl
@[simp] theorem State.supplyArray_useMc (array : Option (List Byte)) : (s.supplyArray array).useMc = s.useMc := rfl
@[simp] theorem State.supplyArray_rep (array : Option (List Byte)) : (s.supplyArray array).rep = s.rep := rfl
@[simp] theorem State.supplyArray_wi (array : Option (List Byte)) : (s.supplyArray array).wi = s.wi := rfl
@[simp] theorem State.supplyArray_vc (array : Option (List Byte)) : (s.supplyArray array).vc = s.vc := rfl
@[simp] theorem State.supplyArray_status (array : Option (List Byte)) : (s.supplyArray array).status = s.status := rfl
@[simp] theorem State.supplyArray_events (array : Option (List Byte)) : (s.supplyArray array).events = s.events := rfl
@[simp] theorem State.supplyArray_call (array : Option (List Byte)) : (s.supplyArray array).call = s.call := rfl
@[simp] theorem State.supplyArray_hostBuf (array : Option (List Byte)) :
    (s.supplyArray array).hostBuf = array.elim s.hostBuf Memory.ofBytes := rfl
@[simp] theorem State.supplyArray_hostSize (array : Option (List Byte)) :
    (s.supplyArray array).hostSize = array.elim s.hostSize List.length := rfl
@[simp] theorem State.supplyArray_unspecifiedCount (array : Option (List Byte)) :
    (s.supplyArray array).unspecifiedCount = s.unspecifiedCount := rfl

/-! latchRequest -/

@[simp] theorem State.latchRequest_buf (start len vmaj vmin vminmin : Nat) :
    (s.latchRequest start len vmaj vmin vminmin).buf = s.hostBuf := rfl
@[simp] theorem State.latchRequest_size (start len vmaj vmin vminmin : Nat) :
    (s.latchRequest start len vmaj vmin vminmin).size = s.hostSize := rfl
@[simp] theorem State.latchRequest_start (start len vmaj vmin vminmin : Nat) :
    (s.latchRequest start len vmaj vmin vminmin).start = start := rfl
@[simp] theorem State.latchRequest_len (start len vmaj vmin vminmin : Nat) :
    (s.latchRequest start len vmaj vmin vminmin).len = len := rfl
@[simp] theorem State.latchRequest_vmaj (start len vmaj vmin vminmin : Nat) :
    (s.latchRequest start len vmaj vmin vminmin).vmaj = vmaj := rfl
@[simp] theorem State.latchRequest_vmin (start len vmaj vmin vminmin : Nat) :
    (s.latchRequest start len vmaj vmin vminmin).vmin = vmin := rfl
@[simp] theorem State.latchRequest_vminmin (start len vmaj vmin vminmin : Nat) :
    (s.latchRequest start len vmaj vmin vminmin).vminmin = vminmin := rfl
@[simp] theorem State.latchRequest_params (start len vmaj vmin vminmin : Nat) :
    (s.latchRequest start len vmaj vmin vminmin).params = s.params := rfl
@[simp] theorem State.latchRequest_p (start len vmaj vmin vminmin : Nat) :
    (s.latchRequest start len vmaj vmin vminmin).p = s.p := rfl
@[simp] theorem State.latchRequest_w (start len vmaj vmin vminmin : Nat) :
    (s.latchRequest start len vmaj vmin vminmin).w = s.w := rfl
@[simp] theorem State.latchRequest_c (start len vmaj vmin vminmin : Nat) :
    (s.latchRequest start len vmaj vmin vminmin).c = s.c := rfl
@[simp] theorem State.latchRequest_cur (start len vmaj vmin vminmin : Nat) :
    (s.latchRequest start len vmaj vmin vminmin).cur = s.cur := rfl
@[simp] theorem State.latchRequest_nxt (start len vmaj vmin vminmin : Nat) :
    (s.latchRequest start len vmaj vmin vminmin).nxt = s.nxt := rfl
@[simp] theorem State.latchRequest_posTable (start len vmaj vmin vminmin : Nat) :
    (s.latchRequest start len vmaj vmin vminmin).posTable = s.posTable := rfl
@[simp] theorem State.latchRequest_colTable (start len vmaj vmin vminmin : Nat) :
    (s.latchRequest start len vmaj vmin vminmin).colTable = s.colTable := rfl
@[simp] theorem State.latchRequest_nrmTable (start len vmaj vmin vminmin : Nat) :
    (s.latchRequest start len vmaj vmin vminmin).nrmTable = s.nrmTable := rfl
@[simp] theorem State.latchRequest_pos (start len vmaj vmin vminmin : Nat) :
    (s.latchRequest start len vmaj vmin vminmin).pos = s.pos := rfl
@[simp] theorem State.latchRequest_color (start len vmaj vmin vminmin : Nat) :
    (s.latchRequest start len vmaj vmin vminmin).color = s.color := rfl
@[simp] theorem State.latchRequest_alpha (start len vmaj vmin vminmin : Nat) :
    (s.latchRequest start len vmaj vmin vminmin).alpha = s.alpha := rfl
@[simp] theorem State.latchRequest_normal (start len vmaj vmin vminmin : Nat) :
    (s.latchRequest start len vmaj vmin vminmin).normal = s.normal := rfl
@[simp] theorem State.latchRequest_bn (start len vmaj vmin vminmin : Nat) :
    (s.latchRequest start len vmaj vmin vminmin).bn = s.bn := rfl
@[simp] theorem State.latchRequest_bc (start len vmaj vmin vminmin : Nat) :
    (s.latchRequest start len vmaj vmin vminmin).bc = s.bc := rfl
@[simp] theorem State.latchRequest_ba (start len vmaj vmin vminmin : Nat) :
    (s.latchRequest start len vmaj vmin vminmin).ba = s.ba := rfl
@[simp] theorem State.latchRequest_useMn (start len vmaj vmin vminmin : Nat) :
    (s.latchRequest start len vmaj vmin vminmin).useMn = s.useMn := rfl
@[simp] theorem State.latchRequest_useMc (start len vmaj vmin vminmin : Nat) :
    (s.latchRequest start len vmaj vmin vminmin).useMc = s.useMc := rfl
@[simp] theorem State.latchRequest_rep (start len vmaj vmin vminmin : Nat) :
    (s.latchRequest start len vmaj vmin vminmin).rep = s.rep := rfl
@[simp] theorem State.latchRequest_wi (start len vmaj vmin vminmin : Nat) :
    (s.latchRequest start len vmaj vmin vminmin).wi = s.wi := rfl
@[simp] theorem State.latchRequest_vc (start len vmaj vmin vminmin : Nat) :
    (s.latchRequest start len vmaj vmin vminmin).vc = s.vc := rfl
@[simp] theorem State.latchRequest_status (start len vmaj vmin vminmin : Nat) :
    (s.latchRequest start len vmaj vmin vminmin).status = s.status := rfl
@[simp] theorem State.latchRequest_events (start len vmaj vmin vminmin : Nat) :
    (s.latchRequest start len vmaj vmin vminmin).events = s.events := rfl
@[simp] theorem State.latchRequest_call (start len vmaj vmin vminmin : Nat) :
    (s.latchRequest start len vmaj vmin vminmin).call = s.call := rfl
@[simp] theorem State.latchRequest_hostBuf (start len vmaj vmin vminmin : Nat) :
    (s.latchRequest start len vmaj vmin vminmin).hostBuf = s.hostBuf := rfl
@[simp] theorem State.latchRequest_hostSize (start len vmaj vmin vminmin : Nat) :
    (s.latchRequest start len vmaj vmin vminmin).hostSize = s.hostSize := rfl
@[simp] theorem State.latchRequest_unspecifiedCount (start len vmaj vmin vminmin : Nat) :
    (s.latchRequest start len vmaj vmin vminmin).unspecifiedCount = s.unspecifiedCount := rfl

/-! resetRegisters -/

@[simp] theorem State.resetRegisters_buf : s.resetRegisters.buf = s.buf := rfl
@[simp] theorem State.resetRegisters_size : s.resetRegisters.size = s.size := rfl
@[simp] theorem State.resetRegisters_start : s.resetRegisters.start = s.start := rfl
@[simp] theorem State.resetRegisters_len : s.resetRegisters.len = s.len := rfl
@[simp] theorem State.resetRegisters_vmaj : s.resetRegisters.vmaj = s.vmaj := rfl
@[simp] theorem State.resetRegisters_vmin : s.resetRegisters.vmin = s.vmin := rfl
@[simp] theorem State.resetRegisters_vminmin : s.resetRegisters.vminmin = s.vminmin := rfl
@[simp] theorem State.resetRegisters_params : s.resetRegisters.params = s.params := rfl
@[simp] theorem State.resetRegisters_p : s.resetRegisters.p = s.start := rfl
@[simp] theorem State.resetRegisters_w : s.resetRegisters.w = 0#32 := rfl
@[simp] theorem State.resetRegisters_c : s.resetRegisters.c = 0 := rfl
@[simp] theorem State.resetRegisters_cur : s.resetRegisters.cur = 0x00#8 := rfl
@[simp] theorem State.resetRegisters_nxt : s.resetRegisters.nxt = 0x01#8 := rfl
@[simp] theorem State.resetRegisters_posTable : s.resetRegisters.posTable = Vector.replicate 64 none := rfl
@[simp] theorem State.resetRegisters_colTable : s.resetRegisters.colTable = Vector.replicate 64 none := rfl
@[simp] theorem State.resetRegisters_nrmTable : s.resetRegisters.nrmTable = Vector.replicate 64 none := rfl
@[simp] theorem State.resetRegisters_pos : s.resetRegisters.pos = unwritten s.params ⟨0, 0, 0⟩ := rfl
@[simp] theorem State.resetRegisters_color : s.resetRegisters.color = unwritten s.params ⟨0, 0, 0⟩ := rfl
@[simp] theorem State.resetRegisters_alpha : s.resetRegisters.alpha = unwritten s.params 0 := rfl
@[simp] theorem State.resetRegisters_normal : s.resetRegisters.normal = unwritten s.params ⟨0, 0, 0, 0⟩ := rfl
@[simp] theorem State.resetRegisters_bn : s.resetRegisters.bn = false := rfl
@[simp] theorem State.resetRegisters_bc : s.resetRegisters.bc = false := rfl
@[simp] theorem State.resetRegisters_ba : s.resetRegisters.ba = false := rfl
@[simp] theorem State.resetRegisters_useMn : s.resetRegisters.useMn = false := rfl
@[simp] theorem State.resetRegisters_useMc : s.resetRegisters.useMc = false := rfl
@[simp] theorem State.resetRegisters_rep : s.resetRegisters.rep = 0#2 := rfl
@[simp] theorem State.resetRegisters_wi : s.resetRegisters.wi = 15#4 := rfl
@[simp] theorem State.resetRegisters_vc : s.resetRegisters.vc = Vector.replicate 16 (unwrittenSlot s.params) := rfl
@[simp] theorem State.resetRegisters_status : s.resetRegisters.status = .run := rfl
@[simp] theorem State.resetRegisters_events : s.resetRegisters.events = s.events := rfl
@[simp] theorem State.resetRegisters_call : s.resetRegisters.call = s.call := rfl
@[simp] theorem State.resetRegisters_hostBuf : s.resetRegisters.hostBuf = s.hostBuf := rfl
@[simp] theorem State.resetRegisters_hostSize : s.resetRegisters.hostSize = s.hostSize := rfl
@[simp] theorem State.resetRegisters_unspecifiedCount : s.resetRegisters.unspecifiedCount = s.unspecifiedCount := rfl

/-! setTable -/

@[simp] theorem State.setTable_buf (k : TableId) (t : Table) : (s.setTable k t).buf = s.buf := by cases k <;> rfl
@[simp] theorem State.setTable_size (k : TableId) (t : Table) : (s.setTable k t).size = s.size := by cases k <;> rfl
@[simp] theorem State.setTable_start (k : TableId) (t : Table) : (s.setTable k t).start = s.start := by cases k <;> rfl
@[simp] theorem State.setTable_len (k : TableId) (t : Table) : (s.setTable k t).len = s.len := by cases k <;> rfl
@[simp] theorem State.setTable_vmaj (k : TableId) (t : Table) : (s.setTable k t).vmaj = s.vmaj := by cases k <;> rfl
@[simp] theorem State.setTable_vmin (k : TableId) (t : Table) : (s.setTable k t).vmin = s.vmin := by cases k <;> rfl
@[simp] theorem State.setTable_vminmin (k : TableId) (t : Table) : (s.setTable k t).vminmin = s.vminmin := by cases k <;> rfl
@[simp] theorem State.setTable_params (k : TableId) (t : Table) : (s.setTable k t).params = s.params := by cases k <;> rfl
@[simp] theorem State.setTable_p (k : TableId) (t : Table) : (s.setTable k t).p = s.p := by cases k <;> rfl
@[simp] theorem State.setTable_w (k : TableId) (t : Table) : (s.setTable k t).w = s.w := by cases k <;> rfl
@[simp] theorem State.setTable_c (k : TableId) (t : Table) : (s.setTable k t).c = s.c := by cases k <;> rfl
@[simp] theorem State.setTable_cur (k : TableId) (t : Table) : (s.setTable k t).cur = s.cur := by cases k <;> rfl
@[simp] theorem State.setTable_nxt (k : TableId) (t : Table) : (s.setTable k t).nxt = s.nxt := by cases k <;> rfl
@[simp] theorem State.setTable_pos (k : TableId) (t : Table) : (s.setTable k t).pos = s.pos := by cases k <;> rfl
@[simp] theorem State.setTable_color (k : TableId) (t : Table) : (s.setTable k t).color = s.color := by cases k <;> rfl
@[simp] theorem State.setTable_alpha (k : TableId) (t : Table) : (s.setTable k t).alpha = s.alpha := by cases k <;> rfl
@[simp] theorem State.setTable_normal (k : TableId) (t : Table) : (s.setTable k t).normal = s.normal := by cases k <;> rfl
@[simp] theorem State.setTable_bn (k : TableId) (t : Table) : (s.setTable k t).bn = s.bn := by cases k <;> rfl
@[simp] theorem State.setTable_bc (k : TableId) (t : Table) : (s.setTable k t).bc = s.bc := by cases k <;> rfl
@[simp] theorem State.setTable_ba (k : TableId) (t : Table) : (s.setTable k t).ba = s.ba := by cases k <;> rfl
@[simp] theorem State.setTable_useMn (k : TableId) (t : Table) : (s.setTable k t).useMn = s.useMn := by cases k <;> rfl
@[simp] theorem State.setTable_useMc (k : TableId) (t : Table) : (s.setTable k t).useMc = s.useMc := by cases k <;> rfl
@[simp] theorem State.setTable_rep (k : TableId) (t : Table) : (s.setTable k t).rep = s.rep := by cases k <;> rfl
@[simp] theorem State.setTable_wi (k : TableId) (t : Table) : (s.setTable k t).wi = s.wi := by cases k <;> rfl
@[simp] theorem State.setTable_vc (k : TableId) (t : Table) : (s.setTable k t).vc = s.vc := by cases k <;> rfl
@[simp] theorem State.setTable_status (k : TableId) (t : Table) : (s.setTable k t).status = s.status := by cases k <;> rfl
@[simp] theorem State.setTable_events (k : TableId) (t : Table) : (s.setTable k t).events = s.events := by cases k <;> rfl
@[simp] theorem State.setTable_call (k : TableId) (t : Table) : (s.setTable k t).call = s.call := by cases k <;> rfl
@[simp] theorem State.setTable_hostBuf (k : TableId) (t : Table) : (s.setTable k t).hostBuf = s.hostBuf := by cases k <;> rfl
@[simp] theorem State.setTable_hostSize (k : TableId) (t : Table) : (s.setTable k t).hostSize = s.hostSize := by cases k <;> rfl
@[simp] theorem State.setTable_unspecifiedCount (k : TableId) (t : Table) : (s.setTable k t).unspecifiedCount = s.unspecifiedCount := by cases k <;> rfl

@[simp] theorem State.table_setTable_same (k : TableId) (t : Table) : (s.setTable k t).table k = t := by cases k <;> rfl

theorem State.table_setTable_other {k k' : TableId} (t : Table) (h : k' ≠ k) : (s.setTable k t).table k' = s.table k' := by
  cases k <;> cases k' <;> first | rfl | exact absurd rfl h

/-! The slots of the cache. -/

@[simp] theorem State.slot_setSlot_same (j : BitVec 4) (v : Slot) : (s.setSlot j v).slot j = v := by
  simp [State.slot, State.setSlot]

theorem State.slot_setSlot_other {i j : BitVec 4} (v : Slot) (h : i ≠ j) : (s.setSlot j v).slot i = s.slot i := by
  have : j.toNat ≠ i.toNat := fun e => h (BitVec.eq_of_toNat_eq e.symm)
  simp [State.slot, State.setSlot, this]

/-- A position push advances WI, writes P into the P part of its slot, and leaves every other slot. -/
theorem State.slot_pushPosition (j : BitVec 4) :
    s.pushPosition.slot j = if j = s.wi + 1 then { s.slot (s.wi + 1) with pos := s.pos } else s.slot j := by
  split
  · next h => subst h; exact State.slot_setSlot_same (s.setWi (s.wi + 1)) _ _
  · next h => exact State.slot_setSlot_other (s.setWi (s.wi + 1)) _ h

/-! E, the tables, the slots and the stream offset under the other updates. -/

@[simp] theorem State.setBfx_endAddr (p : Nat) (w : Window) (c : Nat) : (s.setBfx p w c).endAddr = s.endAddr := rfl
@[simp] theorem State.setBfx_table (p : Nat) (w : Window) (c : Nat) (k : TableId) : (s.setBfx p w c).table k = s.table k := by cases k <;> rfl
@[simp] theorem State.setBfx_slot (p : Nat) (w : Window) (c : Nat) (j : BitVec 4) : (s.setBfx p w c).slot j = s.slot j := rfl
@[simp] theorem State.setCur_endAddr (v : Byte) : (s.setCur v).endAddr = s.endAddr := rfl
@[simp] theorem State.setCur_table (v : Byte) (k : TableId) : (s.setCur v).table k = s.table k := by cases k <;> rfl
@[simp] theorem State.setCur_slot (v : Byte) (j : BitVec 4) : (s.setCur v).slot j = s.slot j := rfl
@[simp] theorem State.setCur_bitpos (v : Byte) : (s.setCur v).bitpos = s.bitpos := rfl
@[simp] theorem State.setNxt_endAddr (v : Byte) : (s.setNxt v).endAddr = s.endAddr := rfl
@[simp] theorem State.setNxt_table (v : Byte) (k : TableId) : (s.setNxt v).table k = s.table k := by cases k <;> rfl
@[simp] theorem State.setNxt_slot (v : Byte) (j : BitVec 4) : (s.setNxt v).slot j = s.slot j := rfl
@[simp] theorem State.setNxt_bitpos (v : Byte) : (s.setNxt v).bitpos = s.bitpos := rfl
@[simp] theorem State.setPos_endAddr (v : Position) : (s.setPos v).endAddr = s.endAddr := rfl
@[simp] theorem State.setPos_table (v : Position) (k : TableId) : (s.setPos v).table k = s.table k := by cases k <;> rfl
@[simp] theorem State.setPos_slot (v : Position) (j : BitVec 4) : (s.setPos v).slot j = s.slot j := rfl
@[simp] theorem State.setPos_bitpos (v : Position) : (s.setPos v).bitpos = s.bitpos := rfl
@[simp] theorem State.setColor_endAddr (v : Color) : (s.setColor v).endAddr = s.endAddr := rfl
@[simp] theorem State.setColor_table (v : Color) (k : TableId) : (s.setColor v).table k = s.table k := by cases k <;> rfl
@[simp] theorem State.setColor_slot (v : Color) (j : BitVec 4) : (s.setColor v).slot j = s.slot j := rfl
@[simp] theorem State.setColor_bitpos (v : Color) : (s.setColor v).bitpos = s.bitpos := rfl
@[simp] theorem State.setAlpha_endAddr (v : Word16) : (s.setAlpha v).endAddr = s.endAddr := rfl
@[simp] theorem State.setAlpha_table (v : Word16) (k : TableId) : (s.setAlpha v).table k = s.table k := by cases k <;> rfl
@[simp] theorem State.setAlpha_slot (v : Word16) (j : BitVec 4) : (s.setAlpha v).slot j = s.slot j := rfl
@[simp] theorem State.setAlpha_bitpos (v : Word16) : (s.setAlpha v).bitpos = s.bitpos := rfl
@[simp] theorem State.setNormal_endAddr (v : Normal) : (s.setNormal v).endAddr = s.endAddr := rfl
@[simp] theorem State.setNormal_table (v : Normal) (k : TableId) : (s.setNormal v).table k = s.table k := by cases k <;> rfl
@[simp] theorem State.setNormal_slot (v : Normal) (j : BitVec 4) : (s.setNormal v).slot j = s.slot j := rfl
@[simp] theorem State.setNormal_bitpos (v : Normal) : (s.setNormal v).bitpos = s.bitpos := rfl
@[simp] theorem State.setRep_endAddr (v : BitVec 2) : (s.setRep v).endAddr = s.endAddr := rfl
@[simp] theorem State.setRep_table (v : BitVec 2) (k : TableId) : (s.setRep v).table k = s.table k := by cases k <;> rfl
@[simp] theorem State.setRep_slot (v : BitVec 2) (j : BitVec 4) : (s.setRep v).slot j = s.slot j := rfl
@[simp] theorem State.setRep_bitpos (v : BitVec 2) : (s.setRep v).bitpos = s.bitpos := rfl
@[simp] theorem State.setWi_endAddr (v : BitVec 4) : (s.setWi v).endAddr = s.endAddr := rfl
@[simp] theorem State.setWi_table (v : BitVec 4) (k : TableId) : (s.setWi v).table k = s.table k := by cases k <;> rfl
@[simp] theorem State.setWi_slot (v : BitVec 4) (j : BitVec 4) : (s.setWi v).slot j = s.slot j := rfl
@[simp] theorem State.setWi_bitpos (v : BitVec 4) : (s.setWi v).bitpos = s.bitpos := rfl
@[simp] theorem State.setSlot_endAddr (j : BitVec 4) (v : Slot) : (s.setSlot j v).endAddr = s.endAddr := rfl
@[simp] theorem State.setSlot_table (j : BitVec 4) (v : Slot) (k : TableId) : (s.setSlot j v).table k = s.table k := by cases k <;> rfl
@[simp] theorem State.setSlot_bitpos (j : BitVec 4) (v : Slot) : (s.setSlot j v).bitpos = s.bitpos := rfl
@[simp] theorem State.setStatus_endAddr (v : Status) : (s.setStatus v).endAddr = s.endAddr := rfl
@[simp] theorem State.setStatus_table (v : Status) (k : TableId) : (s.setStatus v).table k = s.table k := by cases k <;> rfl
@[simp] theorem State.setStatus_slot (v : Status) (j : BitVec 4) : (s.setStatus v).slot j = s.slot j := rfl
@[simp] theorem State.setStatus_bitpos (v : Status) : (s.setStatus v).bitpos = s.bitpos := rfl
@[simp] theorem State.await_endAddr : s.await.endAddr = s.endAddr := rfl
@[simp] theorem State.await_table (k : TableId) : s.await.table k = s.table k := by cases k <;> rfl
@[simp] theorem State.await_slot (j : BitVec 4) : s.await.slot j = s.slot j := rfl
@[simp] theorem State.await_bitpos : s.await.bitpos = s.bitpos := rfl
@[simp] theorem State.emit_endAddr (v : Event) : (s.emit v).endAddr = s.endAddr := rfl
@[simp] theorem State.emit_table (v : Event) (k : TableId) : (s.emit v).table k = s.table k := by cases k <;> rfl
@[simp] theorem State.emit_slot (v : Event) (j : BitVec 4) : (s.emit v).slot j = s.slot j := rfl
@[simp] theorem State.emit_bitpos (v : Event) : (s.emit v).bitpos = s.bitpos := rfl
@[simp] theorem State.setCall_endAddr (v : Option HostCall) : (s.setCall v).endAddr = s.endAddr := rfl
@[simp] theorem State.setCall_table (v : Option HostCall) (k : TableId) : (s.setCall v).table k = s.table k := by cases k <;> rfl
@[simp] theorem State.setCall_slot (v : Option HostCall) (j : BitVec 4) : (s.setCall v).slot j = s.slot j := rfl
@[simp] theorem State.setCall_bitpos (v : Option HostCall) : (s.setCall v).bitpos = s.bitpos := rfl
@[simp] theorem State.setBundling_endAddr (bn bc ba : Bool) : (s.setBundling bn bc ba).endAddr = s.endAddr := rfl
@[simp] theorem State.setBundling_table (bn bc ba : Bool) (k : TableId) : (s.setBundling bn bc ba).table k = s.table k := by cases k <;> rfl
@[simp] theorem State.setBundling_slot (bn bc ba : Bool) (j : BitVec 4) : (s.setBundling bn bc ba).slot j = s.slot j := rfl
@[simp] theorem State.setBundling_bitpos (bn bc ba : Bool) : (s.setBundling bn bc ba).bitpos = s.bitpos := rfl
@[simp] theorem State.clearUseMn_endAddr : s.clearUseMn.endAddr = s.endAddr := rfl
@[simp] theorem State.clearUseMn_table (k : TableId) : s.clearUseMn.table k = s.table k := by cases k <;> rfl
@[simp] theorem State.clearUseMn_slot (j : BitVec 4) : s.clearUseMn.slot j = s.slot j := rfl
@[simp] theorem State.clearUseMn_bitpos : s.clearUseMn.bitpos = s.bitpos := rfl
@[simp] theorem State.clearUseMc_endAddr : s.clearUseMc.endAddr = s.endAddr := rfl
@[simp] theorem State.clearUseMc_table (k : TableId) : s.clearUseMc.table k = s.table k := by cases k <;> rfl
@[simp] theorem State.clearUseMc_slot (j : BitVec 4) : s.clearUseMc.slot j = s.slot j := rfl
@[simp] theorem State.clearUseMc_bitpos : s.clearUseMc.bitpos = s.bitpos := rfl
@[simp] theorem State.clearMeshUse_endAddr : s.clearMeshUse.endAddr = s.endAddr := rfl
@[simp] theorem State.clearMeshUse_table (k : TableId) : s.clearMeshUse.table k = s.table k := by cases k <;> rfl
@[simp] theorem State.clearMeshUse_slot (j : BitVec 4) : s.clearMeshUse.slot j = s.slot j := rfl
@[simp] theorem State.clearMeshUse_bitpos : s.clearMeshUse.bitpos = s.bitpos := rfl
@[simp] theorem State.setMeshUse_endAddr : s.setMeshUse.endAddr = s.endAddr := rfl
@[simp] theorem State.setMeshUse_table (k : TableId) : s.setMeshUse.table k = s.table k := by cases k <;> rfl
@[simp] theorem State.setMeshUse_slot (j : BitVec 4) : s.setMeshUse.slot j = s.slot j := rfl
@[simp] theorem State.setMeshUse_bitpos : s.setMeshUse.bitpos = s.bitpos := rfl
@[simp] theorem State.pushPosition_endAddr : s.pushPosition.endAddr = s.endAddr := rfl
@[simp] theorem State.pushPosition_table (k : TableId) : s.pushPosition.table k = s.table k := by cases k <;> rfl
@[simp] theorem State.pushPosition_bitpos : s.pushPosition.bitpos = s.bitpos := rfl
@[simp] theorem State.supplyArray_endAddr (array : Option (List Byte)) : (s.supplyArray array).endAddr = s.endAddr := rfl
@[simp] theorem State.supplyArray_table (array : Option (List Byte)) (k : TableId) : (s.supplyArray array).table k = s.table k := by cases k <;> rfl
@[simp] theorem State.supplyArray_slot (array : Option (List Byte)) (j : BitVec 4) : (s.supplyArray array).slot j = s.slot j := rfl
@[simp] theorem State.supplyArray_bitpos (array : Option (List Byte)) : (s.supplyArray array).bitpos = s.bitpos := rfl
@[simp] theorem State.latchRequest_table (start len vmaj vmin vminmin : Nat) (k : TableId) : (s.latchRequest start len vmaj vmin vminmin).table k = s.table k := by cases k <;> rfl
@[simp] theorem State.latchRequest_slot (start len vmaj vmin vminmin : Nat) (j : BitVec 4) : (s.latchRequest start len vmaj vmin vminmin).slot j = s.slot j := rfl
@[simp] theorem State.resetRegisters_endAddr : s.resetRegisters.endAddr = s.endAddr := rfl
@[simp] theorem State.setTable_endAddr (k : TableId) (t : Table) : (s.setTable k t).endAddr = s.endAddr := by cases k <;> rfl
@[simp] theorem State.setTable_slot (k : TableId) (t : Table) (j : BitVec 4) : (s.setTable k t).slot j = s.slot j := by cases k <;> rfl
@[simp] theorem State.setTable_bitpos (k : TableId) (t : Table) : (s.setTable k t).bitpos = s.bitpos := by cases k <;> rfl

/-! The state an error leaves: what it keeps, and that nothing else of the old state is in it. -/

@[simp] theorem stopWith_buf (e : ErrorRecord) : (stopWith e s).buf = s.buf := rfl
@[simp] theorem enterError_buf (r : Reason) (i : Info) : (enterError r i s).buf = s.buf := rfl
@[simp] theorem enterPrecheck_buf (r : Reason) (i : Info) : (enterPrecheck r i s).buf = s.buf := rfl
@[simp] theorem stopWith_size (e : ErrorRecord) : (stopWith e s).size = s.size := rfl
@[simp] theorem enterError_size (r : Reason) (i : Info) : (enterError r i s).size = s.size := rfl
@[simp] theorem enterPrecheck_size (r : Reason) (i : Info) : (enterPrecheck r i s).size = s.size := rfl
@[simp] theorem stopWith_start (e : ErrorRecord) : (stopWith e s).start = s.start := rfl
@[simp] theorem enterError_start (r : Reason) (i : Info) : (enterError r i s).start = s.start := rfl
@[simp] theorem enterPrecheck_start (r : Reason) (i : Info) : (enterPrecheck r i s).start = s.start := rfl
@[simp] theorem stopWith_len (e : ErrorRecord) : (stopWith e s).len = s.len := rfl
@[simp] theorem enterError_len (r : Reason) (i : Info) : (enterError r i s).len = s.len := rfl
@[simp] theorem enterPrecheck_len (r : Reason) (i : Info) : (enterPrecheck r i s).len = s.len := rfl
@[simp] theorem stopWith_vmaj (e : ErrorRecord) : (stopWith e s).vmaj = s.vmaj := rfl
@[simp] theorem enterError_vmaj (r : Reason) (i : Info) : (enterError r i s).vmaj = s.vmaj := rfl
@[simp] theorem enterPrecheck_vmaj (r : Reason) (i : Info) : (enterPrecheck r i s).vmaj = s.vmaj := rfl
@[simp] theorem stopWith_vmin (e : ErrorRecord) : (stopWith e s).vmin = s.vmin := rfl
@[simp] theorem enterError_vmin (r : Reason) (i : Info) : (enterError r i s).vmin = s.vmin := rfl
@[simp] theorem enterPrecheck_vmin (r : Reason) (i : Info) : (enterPrecheck r i s).vmin = s.vmin := rfl
@[simp] theorem stopWith_vminmin (e : ErrorRecord) : (stopWith e s).vminmin = s.vminmin := rfl
@[simp] theorem enterError_vminmin (r : Reason) (i : Info) : (enterError r i s).vminmin = s.vminmin := rfl
@[simp] theorem enterPrecheck_vminmin (r : Reason) (i : Info) : (enterPrecheck r i s).vminmin = s.vminmin := rfl
@[simp] theorem stopWith_params (e : ErrorRecord) : (stopWith e s).params = s.params := rfl
@[simp] theorem enterError_params (r : Reason) (i : Info) : (enterError r i s).params = s.params := rfl
@[simp] theorem enterPrecheck_params (r : Reason) (i : Info) : (enterPrecheck r i s).params = s.params := rfl
@[simp] theorem stopWith_events (e : ErrorRecord) : (stopWith e s).events = s.events := rfl
@[simp] theorem enterError_events (r : Reason) (i : Info) : (enterError r i s).events = s.events := rfl
@[simp] theorem enterPrecheck_events (r : Reason) (i : Info) : (enterPrecheck r i s).events = s.events := rfl
@[simp] theorem stopWith_call (e : ErrorRecord) : (stopWith e s).call = s.call := rfl
@[simp] theorem enterError_call (r : Reason) (i : Info) : (enterError r i s).call = s.call := rfl
@[simp] theorem enterPrecheck_call (r : Reason) (i : Info) : (enterPrecheck r i s).call = s.call := rfl
@[simp] theorem stopWith_hostBuf (e : ErrorRecord) : (stopWith e s).hostBuf = s.hostBuf := rfl
@[simp] theorem enterError_hostBuf (r : Reason) (i : Info) : (enterError r i s).hostBuf = s.hostBuf := rfl
@[simp] theorem enterPrecheck_hostBuf (r : Reason) (i : Info) : (enterPrecheck r i s).hostBuf = s.hostBuf := rfl
@[simp] theorem stopWith_hostSize (e : ErrorRecord) : (stopWith e s).hostSize = s.hostSize := rfl
@[simp] theorem enterError_hostSize (r : Reason) (i : Info) : (enterError r i s).hostSize = s.hostSize := rfl
@[simp] theorem enterPrecheck_hostSize (r : Reason) (i : Info) : (enterPrecheck r i s).hostSize = s.hostSize := rfl
@[simp] theorem stopWith_status (e : ErrorRecord) : (stopWith e s).status = .error e := rfl

/-- Two states that agree in what an error keeps, and in the count of free values, end in the same error state. -/
theorem stopWith_congr {s t : State} (e : ErrorRecord) (hb : s.buf = t.buf) (hz : s.size = t.size)
    (hs : s.start = t.start) (hl : s.len = t.len) (h1 : s.vmaj = t.vmaj) (h2 : s.vmin = t.vmin)
    (h3 : s.vminmin = t.vminmin) (hp : s.params = t.params) (he : s.events = t.events) (hc : s.call = t.call)
    (hhb : s.hostBuf = t.hostBuf) (hhs : s.hostSize = t.hostSize)
    (hu : s.unspecifiedCount = t.unspecifiedCount) : stopWith e s = stopWith e t := by
  simp only [stopWith, hb, hz, hs, hl, h1, h2, h3, hp, he, hc, hhb, hhs, hu]

/-- Waiting changes STATUS only, and that only after a normal end. -/
theorem State.await_eq (h : s.status ≠ .done) : s.await = s := by
  cases s with
  | mk => rename_i st _ _ _ _ _; cases st <;> first | rfl | exact absurd rfl h

/-- The state after reset is a fixed point of the reset of a decode start. -/
theorem State.resetRegisters_reset : State.reset.resetRegisters = State.reset := rfl

end Sys2Proof.Machine
end

