-- ==== Sys2Proof/Laws/Ops.lean ====
section
/-! SUPPORT. For each shared operation of Machine/Ops.lean and Machine/Operands.lean one lemma that says everything it can
do: what it answers, in which state, and when. -/

namespace Sys2Proof.Machine

/-! Sequencing. -/

theorem Op.bind_eq {α β : Type} (m : Op α) (f : α → Op β) (s : State) :
    (m >>= f) s = match m s with
      | .ok a t => f a t
      | .error e t => .error e t := by
  change EStateM.bind m f s = _
  unfold EStateM.bind
  cases m s <;> rfl

theorem Op.bind_ok {α β : Type} {m : Op α} {f : α → Op β} {s t : State} {b : β} :
    (m >>= f) s = .ok b t ↔ ∃ a u, m s = .ok a u ∧ f a u = .ok b t := by
  rw [Op.bind_eq]
  cases h : m s with
  | ok a u => simp
  | error e u => simp

theorem Op.bind_error {α β : Type} {m : Op α} {f : α → Op β} {s t : State} {e : Stop} :
    (m >>= f) s = .error e t ↔ m s = .error e t ∨ ∃ a u, m s = .ok a u ∧ f a u = .error e t := by
  rw [Op.bind_eq]
  cases h : m s with
  | ok a u => simp
  | error e u => simp

theorem Op.map_eq {α β : Type} (f : α → β) (m : Op α) (s : State) :
    (f <$> m) s = match m s with
      | .ok a t => .ok (f a) t
      | .error e t => .error e t := by
  change EStateM.map f m s = _
  unfold EStateM.map
  cases m s <;> rfl

@[simp] theorem Op.pure_eq {α : Type} (a : α) (s : State) : (pure a : Op α) s = .ok a s := rfl

@[simp] theorem Op.get_eq (s : State) : (get : Op State) s = .ok s s := rfl

@[simp] theorem raise_eq {α : Type} (r : Reason) (i : Info) (s : State) :
    (raise r i : Op α) s = .error (.raise r i) s := rfl

@[simp] theorem update_eq (f : State → State) (s : State) : update f s = .ok () (f s) := rfl

@[simp] theorem emit_eq (e : Event) (s : State) : emit e s = .ok () (s.emit e) := rfl

@[simp] theorem need_some {α : Type} (a : α) (s : State) : need (some a) s = .ok a s := rfl

@[simp] theorem need_none {α : Type} (s : State) :
    (need (none : Option α)) s = .error (.raise .undefinedRead .nothing) s := rfl

/-- `need` answers the value that is there, and changes nothing. -/
theorem need_ok {α : Type} {v : Option α} {a : α} {s t : State} : need v s = .ok a t ↔ v = some a ∧ t = s := by
  cases v <;> simp [eq_comm]

theorem need_error {α : Type} {v : Option α} {e : Stop} {s t : State} :
    need v s = .error e t ↔ v = none ∧ e = .raise .undefinedRead .nothing ∧ t = s := by
  cases v <;> simp [eq_comm]

/-! The end of a command. -/

@[simp] theorem stopped_raise (r : Reason) (i : Info) (s : State) : stopped (.raise r i) s = .next (enterError r i s) := rfl

@[simp] theorem stopped_noByte (a : Nat) (s : State) : stopped (.noByte a) s = .fault (.noSuchByte a) := rfl

/-- A command has a next state when it runs to its end or raises an error, and only then. -/
theorem runOp_next {m : Op Unit} {s t : State} :
    runOp m s = .next t ↔
      m s = .ok () t ∨ ∃ r i u, m s = .error (.raise r i) u ∧ t = enterError r i u := by
  unfold runOp
  cases h : m s with
  | ok a u => simp
  | error e u =>
    cases e with
    | raise r i => simp [eq_comm]
    | noByte a => simp

theorem runOp_ok {m : Op Unit} {s t : State} (h : m s = .ok () t) : runOp m s = .next t := runOp_next.2 (.inl h)

theorem runOp_raise {m : Op Unit} {s u : State} {r : Reason} {i : Info} (h : m s = .error (.raise r i) u) :
    runOp m s = .next (enterError r i u) := runOp_next.2 (.inr ⟨r, i, u, h, rfl⟩)

/-- No command is refused. -/
theorem runOp_not_refused {m : Op Unit} {s : State} {r : Refusal} : runOp m s ≠ .refused r := by
  unfold runOp
  cases m s with
  | ok a u => simp
  | error e u => cases e <;> simp

/-! The buffer and the extractor. -/

theorem memRead_eq (a : Nat) (s : State) :
    memRead a s = if a < s.size then .ok (s.buf.read a) s else .error (.noByte a) s := rfl

/-- A refill inside E, in a buffer that holds E, loads the four bytes at the cursor, the first most significant. -/
theorem refill_ok {s : State} (he : s.p + 4 ≤ s.endAddr) (hs : s.endAddr ≤ s.size) :
    refill s = .ok () (s.setBfx (s.p + 4)
      (s.buf.read s.p ++ s.buf.read (s.p + 1) ++ s.buf.read (s.p + 2) ++ s.buf.read (s.p + 3)) 32) := by
  have h : ¬ s.endAddr < s.p + 4 := by omega
  have h0 : s.p < s.size := by omega
  have h1 : s.p + 1 < s.size := by omega
  have h2 : s.p + 2 < s.size := by omega
  have h3 : s.p + 3 < s.size := by omega
  simp [refill, Op.bind_eq, memRead_eq, h, h0, h1, h2, h3]

/-- A refill past E raises REFILL_PAST_END with the cursor, and changes nothing. -/
theorem refill_pastEnd {s : State} (he : s.endAddr < s.p + 4) :
    refill s = .error (.raise .refillPastEnd (.cursor s.p)) s := by
  simp [refill, Op.bind_eq, he]

/-- All that a refill can do. -/
theorem refill_cases (s : State) :
    (s.endAddr < s.p + 4 ∧ refill s = .error (.raise .refillPastEnd (.cursor s.p)) s) ∨
    (s.p + 4 ≤ s.endAddr ∧ refill s = .ok () (s.setBfx (s.p + 4)
      (s.buf.read s.p ++ s.buf.read (s.p + 1) ++ s.buf.read (s.p + 2) ++ s.buf.read (s.p + 3)) 32)) ∨
    (s.size < s.endAddr ∧ ∃ a, refill s = .error (.noByte a) s) := by
  by_cases he : s.endAddr < s.p + 4
  · exact .inl ⟨he, refill_pastEnd he⟩
  · by_cases hs : s.p + 3 < s.size
    · have h0 : s.p < s.size := by omega
      have h1 : s.p + 1 < s.size := by omega
      have h2 : s.p + 2 < s.size := by omega
      exact .inr (.inl ⟨by omega, by simp [refill, Op.bind_eq, memRead_eq, he, h0, h1, h2, hs]⟩)
    · refine .inr (.inr ⟨by omega, ?_⟩)
      by_cases h0 : s.p < s.size
      · by_cases h1 : s.p + 1 < s.size
        · by_cases h2 : s.p + 2 < s.size
          · exact ⟨s.p + 3, by simp [refill, Op.bind_eq, memRead_eq, he, h0, h1, h2, hs]⟩
          · exact ⟨s.p + 2, by simp [refill, Op.bind_eq, memRead_eq, he, h0, h1, h2]⟩
        · exact ⟨s.p + 1, by simp [refill, Op.bind_eq, memRead_eq, he, h0, h1]⟩
      · exact ⟨s.p, by simp [refill, Op.bind_eq, memRead_eq, he, h0]⟩

@[simp] theorem takeBits_eq (n : Nat) (s : State) :
    takeBits n s = .ok (s.w >>> (32 - n)).toNat (s.setBfx s.p (s.w <<< n) (s.c - n)) := rfl

@[simp] theorem getBits_zero (s : State) : getBits 0 s = .ok 0 s := rfl

/-- A request that the window holds. -/
theorem getBits_window {n : Nat} {s : State} (h0 : n ≠ 0) (h : n ≤ s.c) : getBits n s = takeBits n s := by
  have hc : s.c ≠ 0 := by omega
  simp [getBits, Op.bind_eq, h0, hc, h]

/-- A request on an empty window. -/
theorem getBits_empty {n : Nat} {s t : State} (h0 : n ≠ 0) (hn : n ≤ 32) (h : s.c = 0) (hr : refill s = .ok () t)
    (ht : t.c = 32) : getBits n s = takeBits n t := by
  simp [getBits, Op.bind_eq, h0, h, hr, ht, hn]

/-- A request that straddles a refill. -/
theorem getBits_straddle {n : Nat} {s t : State} (h0 : s.c ≠ 0) (h : s.c < n) (hr : refill s = .ok () t) :
    getBits n s = .ok ((s.w >>> (32 - s.c)).toNat * 2 ^ (n - s.c) + (t.w >>> (32 - (n - s.c))).toNat)
      (t.setBfx t.p (t.w <<< (n - s.c)) (t.c - (n - s.c))) := by
  have hn : n ≠ 0 := by omega
  have hl : ¬ n ≤ s.c := by omega
  simp [getBits, Op.bind_eq, hn, h0, hl, hr, -bind_pure_comp]

/-- A request that needs a word past E raises the refill's error, and changes nothing. -/
theorem getBits_refill_error {n : Nat} {s t : State} {e : Stop} (h : s.c < n) (hr : refill s = .error e t) :
    getBits n s = .error e t := by
  have hn : n ≠ 0 := by omega
  have hl : ¬ n ≤ s.c := by omega
  by_cases hc : s.c = 0
  · simp [getBits, Op.bind_eq, hn, hc, hr]
  · simp [getBits, Op.bind_eq, hn, hc, hl, hr]

/-- A refill that completes loads some word at the cursor and moves it by 4. -/
theorem refill_frame {s t : State} {u : Unit} (h : refill s = .ok u t) : ∃ w, t = s.setBfx (s.p + 4) w 32 := by
  rcases refill_cases s with ⟨_, hr⟩ | ⟨_, hr⟩ | ⟨_, a, hr⟩ <;> rw [hr] at h <;> simp at h
  exact ⟨_, h.symm⟩

/-- A refill that stops changes nothing; it raises REFILL_PAST_END unless the byte does not exist. -/
theorem refill_stop {s t : State} {e : Stop} (h : refill s = .error e t) :
    t = s ∧ (e = .raise .refillPastEnd (.cursor s.p) ∨ ∃ a, e = .noByte a) := by
  rcases refill_cases s with ⟨_, hr⟩ | ⟨_, hr⟩ | ⟨_, a, hr⟩ <;> rw [hr] at h <;> simp at h
  · exact ⟨h.2.symm, .inl h.1.symm⟩
  · exact ⟨h.2.symm, .inr ⟨a, h.1.symm⟩⟩

/-- `getBits` in two parts: make the window non-empty, then take the bits, across one refill where they straddle. -/
theorem getBits_eq {n : Nat} (h0 : n ≠ 0) (s : State) :
    getBits n s = match (if s.c = 0 then refill s else .ok () s) with
      | .ok _ u => if n ≤ u.c then takeBits n u else
          match refill u with
          | .ok _ v => .ok ((u.w >>> (32 - u.c)).toNat * 2 ^ (n - u.c) + (v.w >>> (32 - (n - u.c))).toNat)
              (v.setBfx v.p (v.w <<< (n - u.c)) (v.c - (n - u.c)))
          | .error e v => .error e v
      | .error e u => .error e u := by
  by_cases hc : s.c = 0
  · cases hr : refill s with
    | error e u => simp [getBits, Op.bind_eq, h0, hc, hr]
    | ok x u =>
      by_cases hn : n ≤ u.c
      · simp [getBits, Op.bind_eq, h0, hc, hr, hn]
      · cases hr' : refill u <;> simp [getBits, Op.bind_eq, h0, hc, hr, hn, hr', -bind_pure_comp]
  · by_cases hn : n ≤ s.c
    · simp [getBits, Op.bind_eq, h0, hc, hn]
    · cases hr' : refill s <;> simp [getBits, Op.bind_eq, h0, hc, hn, hr', -bind_pure_comp]

/-- A request only moves the extractor, when it completes and when it stops; and it stops only in a refill. -/
theorem getBits_frame (n : Nat) (s : State) :
    (∃ v p w c, getBits n s = .ok v (s.setBfx p w c)) ∨
      ∃ e p w c, getBits n s = .error e (s.setBfx p w c) ∧
        (e = .raise .refillPastEnd (.cursor p) ∨ ∃ a, e = .noByte a) := by
  by_cases h0 : n = 0
  · subst h0; exact .inl ⟨0, s.p, s.w, s.c, rfl⟩
  have hu : (∃ p w c, (if s.c = 0 then refill s else .ok () s) = .ok () (s.setBfx p w c)) ∨
      ∃ e, (if s.c = 0 then refill s else .ok () s) = .error e s ∧
        (e = .raise .refillPastEnd (.cursor s.p) ∨ ∃ a, e = .noByte a) := by
    split
    · cases hr : refill s with
      | ok x u => obtain ⟨w, rfl⟩ := refill_frame hr; exact .inl ⟨_, w, _, rfl⟩
      | error e u => obtain ⟨rfl, he⟩ := refill_stop hr; exact .inr ⟨e, rfl, he⟩
    · exact .inl ⟨s.p, s.w, s.c, rfl⟩
  rw [getBits_eq h0]
  rcases hu with ⟨p, w, c, hu⟩ | ⟨e, hu, he⟩
  · simp only [hu]
    split
    · exact .inl ⟨_, _, _, _, rfl⟩
    · cases hr : refill (s.setBfx p w c) with
      | ok x u => obtain ⟨w', rfl⟩ := refill_frame hr; exact .inl ⟨_, _, _, _, rfl⟩
      | error e u => obtain ⟨rfl, he⟩ := refill_stop hr; exact .inr ⟨e, p, w, c, rfl, he⟩
  · simp only [hu]; exact .inr ⟨e, s.p, s.w, s.c, rfl, he⟩

theorem getBits_ok {n v : Nat} {s t : State} (h : getBits n s = .ok v t) : ∃ p w c, t = s.setBfx p w c := by
  rcases getBits_frame n s with ⟨v', p, w, c, hg⟩ | ⟨e, p, w, c, hg, _⟩ <;> rw [hg] at h <;> simp at h
  exact ⟨p, w, c, h.2.symm⟩

theorem getBits_error {n : Nat} {s t : State} {e : Stop} (h : getBits n s = .error e t) :
    (∃ p w c, t = s.setBfx p w c) ∧ (e = .raise .refillPastEnd (.cursor t.p) ∨ ∃ a, e = .noByte a) := by
  rcases getBits_frame n s with ⟨v', p, w, c, hg⟩ | ⟨e', p, w, c, hg, he⟩ <;> rw [hg] at h <;> simp at h
  obtain ⟨rfl, rfl⟩ := h
  exact ⟨⟨p, w, c, rfl⟩, he⟩

/-- The lookahead fetch: the next `n` bits, zero-extended or cut to NXT, and nothing else but the extractor. -/
theorem fetchNext_ok {n : Nat} {s t : State} {u : Unit} :
    fetchNext n s = .ok u t ↔ ∃ b s', getBits n s = .ok b s' ∧ t = s'.setNxt (BitVec.ofNat 8 b) := by
  simp only [fetchNext, Op.bind_ok, update_eq]
  constructor
  · rintro ⟨b, s', hg, h⟩; simp at h; exact ⟨b, s', hg, h.symm⟩
  · rintro ⟨b, s', hg, rfl⟩; exact ⟨b, s', hg, rfl⟩

theorem fetchNext_error {n : Nat} {s t : State} {e : Stop} :
    fetchNext n s = .error e t ↔ getBits n s = .error e t := by
  simp [fetchNext, Op.bind_error]

/-! Operands. -/

/-- A lookup changes nothing and reads no stream bit: it answers the selected entry, or raises UNSET_TABLE_ENTRY, or
NEGATIVE_LENGTH. -/
theorem lookup_eq (k : TableId) (h6 : BitVec 6) (s : State) :
    lookup k h6 s = match s.entryAt k h6 with
      | none => .error (.raise .unsetTableEntry (.slot k h6)) s
      | some e => if e.dataLength < e.rightShift then .error (.raise .negativeLength (.slot k h6)) s else .ok e s := by
  cases h : s.entryAt k h6 with
  | none => simp [lookup, Op.bind_eq, h]
  | some e => by_cases hl : e.dataLength < e.rightShift <;> simp [lookup, Op.bind_eq, Op.map_eq, h, hl]

theorem lookup_ok {k : TableId} {h6 : BitVec 6} {e : Entry} {s t : State} :
    lookup k h6 s = .ok e t ↔ s.entryAt k h6 = some e ∧ e.rightShift ≤ e.dataLength ∧ t = s := by
  rw [lookup_eq]
  cases h : s.entryAt k h6 with
  | none => simp
  | some e' =>
    by_cases hl : e'.dataLength < e'.rightShift
    · simp only [hl, if_true]
      constructor
      · intro h; cases h
      · rintro ⟨he, hle, -⟩; cases he; omega
    · simp only [hl, if_false, EStateM.Result.ok.injEq, Option.some.injEq]
      constructor
      · rintro ⟨rfl, rfl⟩; exact ⟨rfl, by omega, rfl⟩
      · rintro ⟨rfl, -, rfl⟩; exact ⟨rfl, rfl⟩

/-- Unpacking only moves the extractor, and answers one field for each width. -/
theorem unpackFrom_ok {h6 : BitVec 6} {avail : Nat} {ws fs : List Nat} {s t : State}
    (h : unpackFrom h6 avail ws s = .ok fs t) : fs.length = ws.length ∧ ∃ p w c, t = s.setBfx p w c := by
  induction ws generalizing avail fs s t with
  | nil => simp [unpackFrom] at h; exact ⟨by rw [h.1], s.p, s.w, s.c, h.2.symm⟩
  | cons w ws ih =>
    simp only [unpackFrom] at h
    split at h
    · obtain ⟨fs', u, h1, h2⟩ := Op.bind_ok.1 h
      obtain ⟨hl, p, w', c, rfl⟩ := ih h1
      simp at h2
      exact ⟨by rw [← h2.1]; simp [hl], p, w', c, h2.2.symm⟩
    · obtain ⟨lo, v, h0, h⟩ := Op.bind_ok.1 h
      obtain ⟨p, w', c, rfl⟩ := getBits_ok h0
      obtain ⟨fs', u, h1, h2⟩ := Op.bind_ok.1 h
      obtain ⟨hl, p, w', c, rfl⟩ := ih h1
      simp at h2
      exact ⟨by rw [← h2.1]; simp [hl], p, w', c, h2.2.symm⟩

/-- Unpacking stops only in a refill, and has then moved only the extractor. -/
theorem unpackFrom_error {h6 : BitVec 6} {avail : Nat} {ws : List Nat} {s t : State} {e : Stop}
    (h : unpackFrom h6 avail ws s = .error e t) :
    (∃ p w c, t = s.setBfx p w c) ∧ (e = .raise .refillPastEnd (.cursor t.p) ∨ ∃ a, e = .noByte a) := by
  induction ws generalizing avail s t with
  | nil => simp [unpackFrom] at h
  | cons w ws ih =>
    simp only [unpackFrom] at h
    split at h
    · rcases Op.bind_error.1 h with h | ⟨fs', u, -, h2⟩
      · exact ih h
      · simp at h2
    · rcases Op.bind_error.1 h with h | ⟨lo, v, h0, h⟩
      · exact getBits_error h
      · obtain ⟨p, w', c, rfl⟩ := getBits_ok h0
        rcases Op.bind_error.1 h with h | ⟨fs', u, -, h2⟩
        · obtain ⟨⟨p', w'', c', rfl⟩, he⟩ := ih h; exact ⟨⟨p', w'', c', rfl⟩, he⟩
        · simp at h2

theorem unpack_ok {h6 : BitVec 6} {t : Nat} {ws fs : List Nat} {s s' : State} (h : unpack h6 t ws s = .ok fs s') :
    fs.length = ws.length ∧ ∃ p w c, s' = s.setBfx p w c := unpackFrom_ok h

theorem unpack_error {h6 : BitVec 6} {t : Nat} {ws : List Nat} {s s' : State} {e : Stop}
    (h : unpack h6 t ws s = .error e s') :
    (∃ p w c, s' = s.setBfx p w c) ∧ (e = .raise .refillPastEnd (.cursor s'.p) ∨ ∃ a, e = .noByte a) :=
  unpackFrom_error h

end Sys2Proof.Machine
end

