-- ==== Sys2Proof/Laws/Commands.lean ====
section
/-! SUPPORT. For each shared part of a command one lemma that says what it does when it completes: the values it answers
and the one state it leaves. -/

namespace Sys2Proof.Machine

/-! The sink. -/

/-- `ColorOut` changes nothing; it needs C, and A when BA = 1. -/
theorem colorOut_ok {s t : State} {v : ColorValue} :
    colorOut s = .ok v t ↔ t = s ∧ ∃ c, s.color = some c ∧
      (s.ba = true ∧ (∃ a, s.alpha = some a ∧ v = c.toFloats (some a)) ∨ s.ba = false ∧ v = c.toFloats none) := by
  cases hc : s.color <;> cases hb : s.ba <;> cases ha : s.alpha <;>
    simp only [colorOut, Op.bind_eq, Op.get_eq, hc, hb, ha] <;> simp [Op.map_eq] <;>
      exact ⟨fun h => ⟨h.2.symm, h.1.symm⟩, fun h => ⟨h.2.symm, h.1.symm⟩⟩

theorem colorOut_error {s t : State} {e : Stop} (h : colorOut s = .error e t) :
    e = .raise .undefinedRead .nothing ∧ t = s := by
  revert h
  cases hc : s.color <;> cases hb : s.ba <;> cases ha : s.alpha <;>
    simp [colorOut, Op.bind_eq, Op.map_eq, hc, hb, ha] <;> (intro h1 h2; exact ⟨h1.symm, h2.symm⟩)

/-- The normal of an emission changes nothing: null unless BN = 1, else it needs N. -/
theorem vertexNormal_ok {s t : State} {v : Option Vec3} :
    vertexNormal s = .ok v t ↔ t = s ∧
      (s.bn = true ∧ (∃ n, s.normal = some n ∧ v = some (convert s.params n)) ∨ s.bn = false ∧ v = none) := by
  cases hb : s.bn <;> cases hn : s.normal <;>
    simp only [vertexNormal, Op.bind_eq, Op.get_eq, hb, hn] <;> simp [Op.map_eq] <;>
      exact ⟨fun h => ⟨h.2.symm, h.1.symm⟩, fun h => ⟨h.2.symm, h.1.symm⟩⟩

theorem vertexNormal_error {s t : State} {e : Stop} (h : vertexNormal s = .error e t) :
    e = .raise .undefinedRead .nothing ∧ t = s := by
  revert h
  cases hb : s.bn <;> cases hn : s.normal <;>
    simp [vertexNormal, Op.bind_eq, Op.map_eq, hb, hn]
  intro h1 h2
  exact ⟨h1.symm, h2.symm⟩

/-- The color of an emission changes nothing: null unless BC = 1, else `ColorOut`. -/
theorem vertexColor_ok {s t : State} {v : Option ColorValue} :
    vertexColor s = .ok v t ↔ t = s ∧
      (s.bc = true ∧ (∃ c, colorOut s = .ok c s ∧ v = some c) ∨ s.bc = false ∧ v = none) := by
  cases hb : s.bc
  · simp only [vertexColor, Op.bind_eq, Op.get_eq, hb]
    simp
    exact ⟨fun h => ⟨h.2.symm, h.1.symm⟩, fun h => ⟨h.2.symm, h.1.symm⟩⟩
  · cases hc : colorOut s with
    | ok c u =>
      have := (colorOut_ok.1 hc).1
      subst this
      simp only [vertexColor, Op.bind_eq, Op.get_eq, hb, hc, if_true]
      simp
      exact ⟨fun h => ⟨h.2.symm, h.1.symm⟩, fun h => ⟨h.2.symm, h.1.symm⟩⟩
    | error e u => simp [vertexColor, Op.bind_eq, Op.map_eq, hb, hc]

theorem vertexColor_error {s t : State} {e : Stop} (h : vertexColor s = .error e t) :
    e = .raise .undefinedRead .nothing ∧ t = s := by
  cases hb : s.bc
  · simp [vertexColor, Op.bind_eq, hb] at h
  · cases hc : colorOut s with
    | ok c u => simp [vertexColor, Op.bind_eq, Op.map_eq, hb, hc] at h
    | error e' u =>
      simp [vertexColor, Op.bind_eq, Op.map_eq, hb, hc] at h
      obtain ⟨rfl, rfl⟩ := h
      exact colorOut_error hc

/-- An emission sends one vertex event and sets both mesh-use flags. -/
theorem emitVertex_ok {s t : State} {u : Unit} :
    emitVertex s = .ok u t ↔ ∃ p n c, s.pos = some p ∧ vertexNormal s = .ok n s ∧ vertexColor s = .ok c s ∧
      t = (s.emit (.vertex p.toFloats n c s.rep)).setMeshUse := by
  simp only [emitVertex, Op.bind_ok, Op.get_eq, need_ok, emit_eq, update_eq]
  constructor
  · rintro ⟨_, _, hs, p, _, ⟨hp, rfl⟩, n, v, hn, c, w, hc, _, _, he, ht⟩
    cases hs
    have := (vertexNormal_ok.1 hn).1; subst this
    have := (vertexColor_ok.1 hc).1; subst this
    cases he; cases ht
    exact ⟨p, n, c, hp, hn, hc, rfl⟩
  · rintro ⟨p, n, c, hp, hn, hc, rfl⟩
    exact ⟨s, s, rfl, p, s, ⟨hp, rfl⟩, n, s, hn, c, s, hc, (), _, rfl, rfl⟩

/-- An emission that stops raises UNDEFINED_READ and changes nothing. -/
theorem emitVertex_error {s t : State} {e : Stop} (h : emitVertex s = .error e t) :
    e = .raise .undefinedRead .nothing ∧ t = s := by
  simp only [emitVertex, Op.bind_error, Op.get_eq, need_ok, need_error, emit_eq, update_eq] at h
  rcases h with h | ⟨_, _, hs, h⟩
  · cases h
  cases hs
  rcases h with ⟨-, he, ht⟩ | ⟨p, _, ⟨-, rfl⟩, h⟩
  · exact ⟨he, ht⟩
  rcases h with h | ⟨n, v, hn, h⟩
  · exact vertexNormal_error h
  have := (vertexNormal_ok.1 hn).1; subst this
  rcases h with h | ⟨c, w, hc, h⟩
  · exact vertexColor_error h
  rcases h with h | ⟨_, _, -, h⟩ <;> cases h

/-! Normals. -/

/-- The correction answers the sum where it lies in the triangle, else the one correction there is. -/
theorem correctNormal_ok {n n' : Normal} {s t : State} :
    correctNormal n s = .ok n' t ↔ t = s ∧
      (inDomain n.u n.v = true ∧ n' = n ∨ inDomain n.u n.v = false ∧ wrapNormal n = some n') := by
  cases hd : inDomain n.u n.v <;> cases hw : wrapNormal n <;> simp [correctNormal, hd, hw, eq_comm, and_comm]

/-- A correction that stops raises NO_WRAP_CASE with U and V. -/
theorem correctNormal_error {n : Normal} {s t : State} {e : Stop} :
    correctNormal n s = .error e t ↔
      t = s ∧ inDomain n.u n.v = false ∧ wrapNormal n = none ∧ e = .raise .noWrapCase (.uv n.u n.v) := by
  cases hd : inDomain n.u n.v <;> cases hw : wrapNormal n <;> simp [correctNormal, hd, hw, eq_comm, and_comm]

theorem absoluteNormal_ok {h6 : BitVec 6} {e : Entry} {n : Normal} {s t : State}
    (h : absoluteNormal h6 e s = .ok n t) :
    ∃ fs, unpack h6 e.tagLength [6, e.fieldLength, e.fieldLength] s = .ok fs t ∧
      n = { sex := (BitVec.ofNat 6 (fieldAt fs 0)).extractLsb' 3 3, oct := (BitVec.ofNat 6 (fieldAt fs 0)).extractLsb' 0 3
            u := unsignedValue e.rightShift (fieldAt fs 1), v := unsignedValue e.rightShift (fieldAt fs 2) } := by
  obtain ⟨fs, u, hu, h⟩ := Op.bind_ok.1 h
  simp at h
  exact ⟨fs, by rw [hu, h.2], h.1.symm⟩

theorem relativeNormal_ok {h6 : BitVec 6} {e : Entry} {n : Normal} {s t : State}
    (h : relativeNormal h6 e s = .ok n t) :
    ∃ fs n0, unpack h6 e.tagLength [e.fieldLength, e.fieldLength] s = .ok fs t ∧ t.normal = some n0 ∧
      correctNormal { n0 with u := n0.u + signedValue e.fieldLength e.rightShift (fieldAt fs 0)
                              v := n0.v + signedValue e.fieldLength e.rightShift (fieldAt fs 1) } t = .ok n t := by
  obtain ⟨fs, u, hu, h⟩ := Op.bind_ok.1 h
  obtain ⟨s', _, hs, h⟩ := Op.bind_ok.1 h
  cases hs
  obtain ⟨n0, u', hn, h2⟩ := Op.bind_ok.1 h
  obtain ⟨hn', hu'⟩ := need_ok.1 hn
  subst hu'
  have ht := (correctNormal_ok.1 h2).1
  subst ht
  exact ⟨fs, n0, hu, hn', h2⟩

@[simp] theorem pushNormal_eq (mbp : Bool) (s : State) :
    pushNormal mbp s = .ok () (if mbp then s.setSlot s.wi { s.slot s.wi with normal := s.normal } else s) := rfl

/-- A normal command that completes: it clears USE_MN, moves the extractor, writes a normal of the triangle, pushes it
when asked, and sends it when BN = 0. -/
theorem setNormalCommand_ok {h6 : BitVec 6} {mbp : Bool} {s t : State} {x : Unit}
    (h : setNormalCommand h6 mbp s = .ok x t) :
    ∃ e n p w c, s.entryAt .normal h6 = some e ∧ e.rightShift ≤ e.dataLength ∧ inDomain n.u n.v = true ∧
      (if e.absolute then absoluteNormal h6 e else relativeNormal h6 e) s.clearUseMn =
        .ok n (s.clearUseMn.setBfx p w c) ∧
      t = (let r := (s.clearUseMn.setBfx p w c).setNormal n
           let q := if mbp then r.setSlot r.wi { r.slot r.wi with normal := r.normal } else r
           if s.bn then q else q.emit (.globalNormal (convert s.params n))) := by
  obtain ⟨_, _, hs, h⟩ := Op.bind_ok.1 h
  simp only [update_eq] at hs
  cases hs
  obtain ⟨e, _, hl, h⟩ := Op.bind_ok.1 h
  obtain ⟨he, hle, rfl⟩ := lookup_ok.1 hl
  obtain ⟨n, u, hn, h⟩ : ∃ n u, (if e.absolute then absoluteNormal h6 e else relativeNormal h6 e) s.clearUseMn = .ok n u ∧
      (if (!inDomain n.u n.v) = true then (raise .outOfDomain (.uv n.u n.v) : Op Unit) else do
        update (·.setNormal n)
        pushNormal mbp
        let s ← get
        if (!s.bn) = true then emit (.globalNormal (convert s.params n)) else pure ()) u = .ok x t := by
    cases ha : e.absolute <;> simp only [ha, Bool.false_eq_true, if_false, if_true] at h ⊢ <;>
      obtain ⟨n, u, hn, h⟩ := Op.bind_ok.1 h <;> refine ⟨n, u, hn, ?_⟩ <;>
      cases hd : inDomain n.u n.v <;> simp [Op.bind_eq, hd] at h ⊢ <;> exact h
  have hu : ∃ p w c, u = s.clearUseMn.setBfx p w c := by
    split at hn
    · obtain ⟨fs, hf, -⟩ := absoluteNormal_ok hn; exact (unpack_ok hf).2
    · obtain ⟨fs, n0, hf, -, -⟩ := relativeNormal_ok hn; exact (unpack_ok hf).2
  obtain ⟨p, w, c, rfl⟩ := hu
  by_cases hd : inDomain n.u n.v
  · refine ⟨e, n, p, w, c, he, hle, hd, hn, ?_⟩
    cases mbp <;> cases hb : s.bn <;> simp [Op.bind_eq, hd, hb] at h <;> simpa using h.symm
  · simp [hd] at h

/-! Colors. -/

theorem accumulateColor_ok {e : Entry} {fs : List Nat} {s t : State} {x : Unit}
    (h : accumulateColor e fs s = .ok x t) :
    ∃ c, t = (if s.ba then (s.setColor c).setAlpha (if e.absolute then channelValue e fs 3
        else s.alpha.getD 0 + channelValue e fs 3) else s.setColor c) ∧
      (e.absolute = true → c = ⟨channelValue e fs 0, channelValue e fs 1, channelValue e fs 2⟩) ∧
      (e.absolute = false → ∃ c0, s.color = some c0 ∧
        c = c0.add ⟨channelValue e fs 0, channelValue e fs 1, channelValue e fs 2⟩) ∧
      (e.absolute = false → s.ba = true → s.alpha.isSome = true) := by
  revert h
  cases ha : e.absolute <;> cases hb : s.ba <;> cases hc : s.color <;> cases hx : s.alpha <;>
    simp [accumulateColor, Op.bind_eq, ha, hb, hc, hx] <;> intro h <;> simpa using h.symm

@[simp] theorem pushColor_eq (mbp : Bool) (s : State) :
    pushColor mbp s =
      .ok () (if mbp then s.setSlot s.wi { s.slot s.wi with color := s.color, alpha := s.alpha } else s) := rfl

/-- A color command that completes: it clears USE_MC, moves the extractor, accumulates, pushes when asked, and sends the
color when BC = 0. -/
theorem setColorCommand_ok {h6 : BitVec 6} {mbp : Bool} {s t : State} {x : Unit}
    (h : setColorCommand h6 mbp s = .ok x t) :
    ∃ e fs p w c r, s.entryAt .color h6 = some e ∧ e.rightShift ≤ e.dataLength ∧
      unpack h6 e.tagLength (List.replicate (channelCount s.ba) e.fieldLength) s.clearUseMc =
        .ok fs (s.clearUseMc.setBfx p w c) ∧
      accumulateColor e fs (s.clearUseMc.setBfx p w c) = .ok () r ∧
      (let q := if mbp then r.setSlot r.wi { r.slot r.wi with color := r.color, alpha := r.alpha } else r
       (r.bc = true → t = q) ∧ (r.bc = false → ∃ v, colorOut q = .ok v q ∧ t = q.emit (.globalColor v))) := by
  obtain ⟨_, _, hs, h⟩ := Op.bind_ok.1 h
  simp only [update_eq] at hs
  cases hs
  obtain ⟨e, _, hl, h⟩ := Op.bind_ok.1 h
  obtain ⟨he, hle, rfl⟩ := lookup_ok.1 hl
  obtain ⟨_, _, hs, h⟩ := Op.bind_ok.1 h
  cases hs
  obtain ⟨fs, u, hf, h⟩ := Op.bind_ok.1 h
  obtain ⟨p, w, c, rfl⟩ := (unpack_ok hf).2
  obtain ⟨_, r, hr, h⟩ := Op.bind_ok.1 h
  refine ⟨e, fs, p, w, c, r, he, hle, hf, hr, ?_⟩
  cases mbp <;> cases hb : r.bc <;> simp [Op.bind_eq, hb] at h ⊢
  · split at h
    · next v q hv => obtain ⟨rfl, -⟩ := colorOut_ok.1 hv; simp at h; exact ⟨v, hv, h.symm⟩
    · cases h
  · exact h.symm
  · split at h
    · next v q hv => obtain ⟨rfl, -⟩ := colorOut_ok.1 hv; simp at h; exact ⟨v, hv, h.symm⟩
    · cases h
  · exact h.symm

/-! Positions. -/

theorem accumulatePosition_ok {e : Entry} {fs : List Nat} {s t : State} {x : Unit}
    (h : accumulatePosition e fs s = .ok x t) :
    ∃ p, t = s.setPos p ∧
      (e.absolute = true → p = ⟨axisValue e fs 0, axisValue e fs 1, axisValue e fs 2⟩) ∧
      (e.absolute = false → ∃ p0, s.pos = some p0 ∧
        p = p0.add ⟨axisValue e fs 0, axisValue e fs 1, axisValue e fs 2⟩) := by
  revert h
  cases ha : e.absolute <;> cases hp : s.pos <;>
    simp [accumulatePosition, Op.bind_eq, ha, hp] <;> intro h <;> simpa using h.symm

/-- The replace code and push bit take only the bits the header does not hold. -/
theorem replaceAndPush_ok {h6 : BitVec 6} {e : Entry} {rm : BitVec 3} {s t : State}
    (h : replaceAndPush h6 e s = .ok rm t) :
    ∃ b, getBits (3 - (spareBits e).toNat) s = .ok b t ∧
      rm = BitVec.ofNat 3 (bitField h6.toNat 0 (spareBits e).toNat * 2 ^ (3 - (spareBits e).toNat) + b) := by
  obtain ⟨b, u, hu, h⟩ := Op.bind_ok.1 h
  simp at h
  exact ⟨b, by rw [hu, h.2], h.1.symm⟩

/-- The position part of a vertex that completes: it clears both mesh-use flags, moves the extractor, writes REP and P,
and pushes when `rm[0]` is set; it answers that bit. -/
theorem vertexPosition_ok {h6 : BitVec 6} {b : Bool} {s t : State} (h : vertexPosition h6 s = .ok b t) :
    ∃ e rm fs q p w c, s.entryAt .position h6 = some e ∧ e.rightShift ≤ e.dataLength ∧ spareBits e ≤ 3 ∧
      b = rm.getLsbD 0 ∧
      (∃ p' w' c', replaceAndPush h6 e s.clearMeshUse = .ok rm (s.clearMeshUse.setBfx p' w' c') ∧
        unpack h6 e.tagLength [e.fieldLength, e.fieldLength, e.fieldLength]
          ((s.clearMeshUse.setBfx p' w' c').setRep (rm.extractLsb' 1 2)) =
          .ok fs ((s.clearMeshUse.setRep (rm.extractLsb' 1 2)).setBfx p w c)) ∧
      (e.absolute = true → q = ⟨axisValue e fs 0, axisValue e fs 1, axisValue e fs 2⟩) ∧
      (e.absolute = false → ∃ p0, s.pos = some p0 ∧
        q = p0.add ⟨axisValue e fs 0, axisValue e fs 1, axisValue e fs 2⟩) ∧
      t = (let r := ((s.clearMeshUse.setRep (rm.extractLsb' 1 2)).setBfx p w c).setPos q
           if b then r.pushPosition else r) := by
  obtain ⟨_, _, hs, h⟩ := Op.bind_ok.1 h
  simp only [update_eq] at hs
  cases hs
  obtain ⟨e, _, hl, h⟩ := Op.bind_ok.1 h
  obtain ⟨he, hle, rfl⟩ := lookup_ok.1 hl
  by_cases hsp : 3 < spareBits e
  · simp [Op.bind_eq, hsp] at h
  simp only [hsp, if_false] at h
  obtain ⟨rm, u, hrm, h⟩ := Op.bind_ok.1 h
  obtain ⟨_, hg, -⟩ := replaceAndPush_ok hrm
  obtain ⟨p', w', c', rfl⟩ := getBits_ok hg
  obtain ⟨_, _, hs, h⟩ := Op.bind_ok.1 h
  simp only [update_eq] at hs
  cases hs
  obtain ⟨fs, u, hf, h⟩ := Op.bind_ok.1 h
  obtain ⟨-, p, w, c, rfl⟩ := unpack_ok hf
  obtain ⟨_, u, ha, h⟩ := Op.bind_ok.1 h
  obtain ⟨q, rfl, hq1, hq2⟩ := accumulatePosition_ok ha
  refine ⟨e, rm, fs, q, p, w, c, he, hle, by omega, ?_, ⟨p', w', c', hrm, hf⟩, hq1, hq2, ?_⟩
  · cases hb : rm.getLsbD 0 <;> rw [hb] at h <;> simp [Op.map_eq] at h <;> exact h.1
  · cases hb : rm.getLsbD 0 <;> rw [hb] at h <;> simp [Op.map_eq] at h <;> obtain ⟨rfl, rfl⟩ := h <;> rfl

/-! Mesh buffer references. -/

theorem reuseNormal_ok {slot : Slot} {s t : State} {x : Unit} :
    reuseNormal slot s = .ok x t ↔
      ((s.bn && s.useMn) = true ∧ ∃ n, slot.normal = some n ∧ t = s.setNormal n) ∨
        ((s.bn && s.useMn) = false ∧ t = s) := by
  cases hb : (s.bn && s.useMn) <;> cases hn : slot.normal <;>
    simp only [reuseNormal, Op.bind_eq, Op.get_eq, hb, hn] <;> simp [Op.bind_eq] <;> exact eq_comm

theorem reuseColor_ok {slot : Slot} {s t : State} {x : Unit} :
    reuseColor slot s = .ok x t ↔
      ((s.bc && s.useMc) = true ∧ ∃ c, slot.color = some c ∧
        (s.ba = true ∧ (∃ a, slot.alpha = some a ∧ t = (s.setColor c).setAlpha a) ∨ s.ba = false ∧ t = s.setColor c)) ∨
        ((s.bc && s.useMc) = false ∧ t = s) := by
  cases hb : (s.bc && s.useMc) <;> cases hc : slot.color <;> cases ha : slot.alpha <;> cases hba : s.ba <;>
    simp only [reuseColor, Op.bind_eq, Op.get_eq, hb, hc, ha, hba] <;> simp [Op.bind_eq] <;> exact eq_comm

/-- A reference that completes writes REP, takes the parts it reuses, and clears both mesh-use flags. -/
theorem meshReference_ok {k : BitVec 4} {r1 : Bool} {s t : State} {x : Unit} (h : meshReference k r1 s = .ok x t) :
    ∃ r0 p w c q u v, getBits 1 s = .ok r0 (s.setBfx p w c) ∧ (s.slot (s.wi - k)).pos = some q ∧
      reuseNormal (s.slot (s.wi - k))
        (((s.setBfx p w c).setRep (BitVec.ofBool r1 ++ BitVec.ofNat 1 r0)).setPos q) = .ok () u ∧
      reuseColor (s.slot (s.wi - k)) u = .ok () v ∧ t = v.clearMeshUse := by
  obtain ⟨r0, u, hg, h⟩ := Op.bind_ok.1 h
  obtain ⟨p, w, c, rfl⟩ := getBits_ok hg
  obtain ⟨_, _, hs, h⟩ := Op.bind_ok.1 h
  simp only [update_eq] at hs
  cases hs
  obtain ⟨_, _, hs, h⟩ := Op.bind_ok.1 h
  cases hs
  obtain ⟨q, _, hn, h⟩ := Op.bind_ok.1 h
  obtain ⟨hq, rfl⟩ := need_ok.1 hn
  obtain ⟨_, _, hs, h⟩ := Op.bind_ok.1 h
  simp only [update_eq] at hs
  cases hs
  obtain ⟨_, u, hu, h⟩ := Op.bind_ok.1 h
  obtain ⟨_, v, hv, h⟩ := Op.bind_ok.1 h
  simp at h
  exact ⟨r0, p, w, c, q, u, v, hg, hq, hu, hv, h.symm⟩

/-! Fetch. -/

/-- The fetch loads CUR, and for a header that is no vertex fetches the next header; it answers the command of CUR. -/
theorem fetch_ok {s t : State} {i : Instr} (h : fetch s = .ok i t) :
    i = decodeHeader s.nxt ∧
      (isVertexHeader s.nxt = true ∧ t = s.setCur s.nxt ∨
        isVertexHeader s.nxt = false ∧ fetchNext 8 (s.setCur s.nxt) = .ok () t) := by
  simp only [fetch, Op.bind_eq, update_eq, Op.get_eq] at h
  split at h
  · next hv =>
    have hv' : isVertexHeader s.nxt = false := by simpa using hv
    cases hf : fetchNext 8 (s.setCur s.nxt) with
    | ok x u => simp [Op.map_eq, hf] at h; exact ⟨h.1.symm, .inr ⟨hv', by rw [h.2]⟩⟩
    | error e u => simp [Op.map_eq, hf] at h
  · next hv =>
    have hv' : isVertexHeader s.nxt = true := by simpa using hv
    simp at h
    exact ⟨h.1.symm, .inl ⟨hv', h.2.symm⟩⟩

/-- A fetch that stops is the lookahead fetch of a header that is no vertex, with CUR loaded. -/
theorem fetch_error {s t : State} {e : Stop} (h : fetch s = .error e t) :
    isVertexHeader s.nxt = false ∧ fetchNext 8 (s.setCur s.nxt) = .error e t := by
  simp only [fetch, Op.bind_eq, update_eq, Op.get_eq] at h
  split at h
  · next hv =>
    cases hf : fetchNext 8 (s.setCur s.nxt) with
    | ok x u => simp [Op.map_eq, hf] at h
    | error e u => simp [Op.map_eq, hf] at h; exact ⟨by simpa using hv, by rw [h.1, h.2]⟩
  · cases h

/-! Host calls. -/

/-- A host write that is allowed writes its byte of the host's array and nothing else. -/
theorem hostWrite_next {a : Nat} {b : Byte} {s t : State} :
    hostWrite a b s = .next t ↔
      ¬(s.status = .run ∧ s.start ≤ a ∧ a < s.endAddr) ∧ a < s.hostSize ∧
        t = { s with hostBuf := s.hostBuf.write a b } := by
  unfold hostWrite
  split
  · next h => exact ⟨(fun e => by cases e), fun e => absurd h e.1⟩
  · next h =>
    split
    · next h' => exact ⟨(fun e => by cases e), fun e => absurd e.2.1 (Nat.not_lt.2 h')⟩
    · next h' => exact ⟨(fun e => by cases e; exact ⟨h, Nat.not_le.1 h', rfl⟩), fun e => by rw [e.2.2]⟩

/-- A host write is refused exactly inside the window of a running decode. -/
theorem hostWrite_refused {a : Nat} {b : Byte} {s : State} {r : Refusal} :
    hostWrite a b s = .refused r ↔
      (s.status = .run ∧ s.start ≤ a ∧ a < s.endAddr) ∧ r = .bufferChangedWhileRunning := by
  unfold hostWrite
  split
  · next h => simp [h, eq_comm]
  · next h => split <;> simp [h]

/-- A decode start ends in one of the two errors of the pre-checks or in the reset of the latched request. -/
theorem decodeStart_cases (start len vmaj vmin vminmin : Nat) (s : State) :
    (s.hostSize < start + len ∧ decodeStart start len vmaj vmin vminmin s =
      enterPrecheck .precheck (.endAddress (start + len)) s) ∨
    (start + len ≤ s.hostSize ∧ versionOk s.params vmaj vmin vminmin = false ∧
      decodeStart start len vmaj vmin vminmin s = enterPrecheck .version (.declared vmaj vmin vminmin) s) ∨
    (start + len ≤ s.hostSize ∧ versionOk s.params vmaj vmin vminmin = true ∧
      decodeStart start len vmaj vmin vminmin s = (s.latchRequest start len vmaj vmin vminmin).resetRegisters) := by
  unfold decodeStart
  split
  · next h => exact .inl ⟨h, rfl⟩
  · next h =>
    cases hv : versionOk s.params vmaj vmin vminmin
    · exact .inr (.inl ⟨Nat.not_lt.1 h, rfl, rfl⟩)
    · exact .inr (.inr ⟨Nat.not_lt.1 h, rfl, rfl⟩)

/-- A call that is taken is a Decode call with no decode running, or an allowed write; either takes the call. -/
theorem takeCall_next {call : HostCall} {s t : State} (h : takeCall call s = .next t) :
    (∃ array start len vmaj vmin vminmin, call = .decode array start len vmaj vmin vminmin ∧ s.status ≠ .run ∧
      t = decodeStart start len vmaj vmin vminmin ((s.setCall none).supplyArray array)) ∨
    (∃ a b, call = .writeBuffer a b ∧ hostWrite a b (s.setCall none) = .next t) := by
  cases call with
  | decode array start len vmaj vmin vminmin =>
    simp only [takeCall] at h
    split at h
    · cases h
    · next hr => cases h; exact .inl ⟨_, _, _, _, _, _, rfl, hr, rfl⟩
  | writeBuffer a b => exact .inr ⟨a, b, rfl, h⟩

end Sys2Proof.Machine
end

