-- ==== Sys2Proof/Laws/Memory.lean ====
section
/-! SUPPORT. The buffer: every operation keeps the canonical form, a read after a write, and that canonical buffers which
read alike are equal. -/

namespace Sys2Proof.Machine

theorem Memory.wfFrom_cons {size lo k : Nat} {v : Byte} {rest : Memory} :
    Memory.wfFrom size lo ((k, v) :: rest) = true ↔
      lo ≤ k ∧ k < size ∧ v ≠ unlistedByte ∧ Memory.wfFrom size (k + 1) rest = true := by
  simp [Memory.wfFrom, and_assoc]

theorem Memory.wfFrom_mono {size : Nat} {lo lo' : Nat} {m : Memory} (h : lo' ≤ lo)
    (hm : Memory.wfFrom size lo m = true) : Memory.wfFrom size lo' m = true := by
  cases m with
  | nil => rfl
  | cons c rest =>
    obtain ⟨k, v⟩ := c
    rw [Memory.wfFrom_cons] at hm ⊢
    exact ⟨by omega, hm.2⟩

/-- An address below every listed one reads as an unlisted byte. -/
theorem Memory.read_below {size lo a : Nat} {m : Memory} (hm : Memory.wfFrom size lo m = true) (h : a < lo) :
    m.read a = unlistedByte := by
  induction m generalizing lo with
  | nil => rfl
  | cons c rest ih =>
    obtain ⟨k, v⟩ := c
    rw [Memory.wfFrom_cons] at hm
    have hk : k ≠ a := by omega
    simp only [Memory.read, hk, if_false]
    exact ih hm.2.2.2 (by omega)

theorem Memory.wfFrom_write {size lo a : Nat} {b : Byte} {m : Memory} (hm : Memory.wfFrom size lo m = true)
    (hl : lo ≤ a) (ha : a < size) : Memory.wfFrom size lo (m.write a b) = true := by
  induction m generalizing lo with
  | nil =>
    simp only [Memory.write]
    split
    · rfl
    · next hb => exact Memory.wfFrom_cons.2 ⟨hl, ha, hb, rfl⟩
  | cons c rest ih =>
    obtain ⟨k, v⟩ := c
    have hm' := Memory.wfFrom_cons.1 hm
    simp only [Memory.write]
    split
    · next hak =>
      split
      · exact hm
      · next hb => exact Memory.wfFrom_cons.2 ⟨hl, ha, hb, Memory.wfFrom_cons.2 ⟨by omega, hm'.2⟩⟩
    · next hak =>
      split
      · next hk =>
        split
        · exact Memory.wfFrom_mono (by omega) hm'.2.2.2
        · next hb => exact Memory.wfFrom_cons.2 ⟨hl, ha, hb, hk ▸ hm'.2.2.2⟩
      · next hk => exact Memory.wfFrom_cons.2 ⟨hm'.1, hm'.2.1, hm'.2.2.1, ih hm'.2.2.2 (by omega)⟩

/-- A host write inside the buffer keeps the canonical form. -/
theorem Memory.wf_write {size a : Nat} {b : Byte} {m : Memory} (hm : Memory.wf size m = true) (ha : a < size) :
    Memory.wf size (m.write a b) = true :=
  Memory.wfFrom_write hm (Nat.zero_le a) ha

theorem Memory.wfFrom_ofBytesFrom {size a : Nat} {bytes : List Byte} (h : a + bytes.length ≤ size) :
    Memory.wfFrom size a (Memory.ofBytesFrom a bytes) = true := by
  induction bytes generalizing a with
  | nil => rfl
  | cons b bs ih =>
    have h' : a + 1 + bs.length ≤ size := by simp only [List.length_cons] at h; omega
    simp only [Memory.ofBytesFrom]
    split
    · exact Memory.wfFrom_mono (Nat.le_succ a) (ih h')
    · next hb => exact Memory.wfFrom_cons.2 ⟨Nat.le_refl a, by omega, hb, ih h'⟩

/-- The byte array of a request is canonical. -/
theorem Memory.wf_ofBytes (bytes : List Byte) : Memory.wf bytes.length (Memory.ofBytes bytes) = true :=
  Memory.wfFrom_ofBytesFrom (by omega)

/-- A byte that was written reads back. -/
theorem Memory.read_write_same {size lo a : Nat} {b : Byte} {m : Memory} (hm : Memory.wfFrom size lo m = true) :
    (m.write a b).read a = b := by
  induction m generalizing lo with
  | nil =>
    simp only [Memory.write]
    split
    · next hb => exact hb.symm
    · simp [Memory.read]
  | cons c rest ih =>
    obtain ⟨k, v⟩ := c
    have hm' := Memory.wfFrom_cons.1 hm
    simp only [Memory.write]
    split
    · next hak =>
      split
      · next hb => rw [hb]; exact Memory.read_below (Memory.wfFrom_mono (Nat.le_refl k)
          (Memory.wfFrom_cons.2 ⟨Nat.le_refl k, hm'.2⟩)) hak
      · simp [Memory.read]
    · split
      · next hk =>
        split
        · next hb => rw [hb]; exact Memory.read_below hm'.2.2.2 (by omega)
        · simp [Memory.read]
      · next hk =>
        have hne : k ≠ a := fun e => hk e.symm
        simp only [Memory.read, hne, if_false]
        exact ih hm'.2.2.2

/-- A write leaves every other byte. -/
theorem Memory.read_write_other {a i : Nat} {b : Byte} {m : Memory} (h : i ≠ a) : (m.write a b).read i = m.read i := by
  have ha : a ≠ i := fun e => h e.symm
  induction m with
  | nil => simp only [Memory.write]; split <;> simp [Memory.read, ha]
  | cons c rest ih =>
    obtain ⟨k, v⟩ := c
    simp only [Memory.write]
    split
    · split <;> simp [Memory.read, ha]
    · split
      · next hk => subst hk; split <;> simp [Memory.read, ha]
      · simp only [Memory.read, ih]

/-- The byte array of a request reads back byte by byte. -/
theorem Memory.read_ofBytesFrom {a i : Nat} {bytes : List Byte} (h : i < bytes.length) :
    (Memory.ofBytesFrom a bytes).read (a + i) = bytes[i] := by
  induction bytes generalizing a i with
  | nil => simp at h
  | cons b bs ih =>
    simp only [Memory.ofBytesFrom]
    cases i with
    | zero =>
      split
      · next hb =>
        rw [Nat.add_zero, List.getElem_cons_zero, hb]
        exact Memory.read_below (Memory.wfFrom_ofBytesFrom (Nat.le_refl _)) (Nat.lt_succ_self a)
      · simp [Memory.read]
    | succ i =>
      have hi : i < bs.length := by simpa using h
      have hn : a + (i + 1) = a + 1 + i := by omega
      split
      · rw [hn, ih hi]; rfl
      · have hne : a ≠ a + (i + 1) := by omega
        simp only [Memory.read, hne, if_false, List.getElem_cons_succ]
        rw [hn, ih hi]

/-- Canonical buffers that read alike at every address are equal. -/
theorem Memory.wfFrom_ext {size lo : Nat} {m m' : Memory} (hm : Memory.wfFrom size lo m = true)
    (hm' : Memory.wfFrom size lo m' = true) (h : ∀ a, m.read a = m'.read a) : m = m' := by
  induction m generalizing m' lo with
  | nil =>
    cases m' with
    | nil => rfl
    | cons c rest =>
      obtain ⟨k, v⟩ := c
      exact absurd (by simpa [Memory.read] using (h k).symm) (Memory.wfFrom_cons.1 hm').2.2.1
  | cons c rest ih =>
    obtain ⟨k, v⟩ := c
    have hc := Memory.wfFrom_cons.1 hm
    cases m' with
    | nil => exact absurd (by simpa [Memory.read] using h k) hc.2.2.1
    | cons c' rest' =>
      obtain ⟨k', v'⟩ := c'
      have hc' := Memory.wfFrom_cons.1 hm'
      have hlow : Memory.wfFrom size k ((k, v) :: rest) = true := Memory.wfFrom_cons.2 ⟨Nat.le_refl k, hc.2⟩
      have hlow' : Memory.wfFrom size k' ((k', v') :: rest') = true := Memory.wfFrom_cons.2 ⟨Nat.le_refl k', hc'.2⟩
      have hk : k = k' := by
        rcases Nat.lt_trichotomy k k' with hlt | heq | hgt
        · refine absurd ?_ hc.2.2.1
          rw [← Memory.read_below hlow' hlt, ← h k]; simp [Memory.read]
        · exact heq
        · refine absurd ?_ hc'.2.2.1
          rw [← Memory.read_below hlow hgt, h k']; simp [Memory.read]
      subst hk
      have hv : v = v' := by simpa [Memory.read] using h k
      subst hv
      rw [ih hc.2.2.2 hc'.2.2.2 fun a => ?_]
      by_cases ha : k = a
      · subst ha
        rw [Memory.read_below hc.2.2.2 (Nat.lt_succ_self k), Memory.read_below hc'.2.2.2 (Nat.lt_succ_self k)]
      · simpa [Memory.read, ha] using h a

/-- Equal memories are equal data. -/
theorem Memory.wf_ext {size : Nat} {m m' : Memory} (hm : Memory.wf size m = true) (hm' : Memory.wf size m' = true)
    (h : ∀ a, m.read a = m'.read a) : m = m' :=
  Memory.wfFrom_ext hm hm' h

/-- The buffer of the reset state has the canonical form. -/
theorem Memory.wf_reset : Memory.wf State.reset.size State.reset.buf = true := rfl

/-- The array a Decode call passes has the canonical form. -/
theorem Memory.wf_supplyArray (s : State) (array : Option (List Byte)) (h : Memory.wf s.hostSize s.hostBuf = true) :
    Memory.wf (s.supplyArray array).hostSize (s.supplyArray array).hostBuf = true := by
  cases array with
  | none => exact h
  | some bytes => exact Memory.wf_ofBytes bytes

end Sys2Proof.Machine
end

