-- ==== Sys2Proof/Laws/PerInstr.lean ====
section
/-! SUPPORT. Statements about every command as syntax, one lemma for each constructor of Instr. -/

namespace Sys2Proof

/-- The encoding of a command fits the width of its header: a subheader leaves the top two bits 0. -/
def Laws.EncodeFits.Statement (i : Instr) : Prop := (encode i).toNat < 2 ^ headerWidth i

theorem subheader_fits : ∀ h6 : BitVec 6, (0#2 ++ h6 : BitVec 8).toNat < 2 ^ 6 := by decide

theorem Laws.EncodeFits.nrm (h6 : BitVec 6) : Laws.EncodeFits.Statement (.nrm h6) := (encode (.nrm h6)).isLt

theorem Laws.EncodeFits.col (h6 : BitVec 6) : Laws.EncodeFits.Statement (.col h6) := (encode (.col h6)).isLt

theorem Laws.EncodeFits.vtx (h6 : BitVec 6) : Laws.EncodeFits.Statement (.vtx h6) := (encode (.vtx h6)).isLt

theorem Laws.EncodeFits.mbr (k : BitVec 4) (r1 : Bool) : Laws.EncodeFits.Statement (.mbr k r1) := (encode (.mbr k r1)).isLt

theorem Laws.EncodeFits.sst (x : BitVec 2) (bn : Bool) : Laws.EncodeFits.Statement (.sst x bn) := (encode (.sst x bn)).isLt

theorem Laws.EncodeFits.stb (s : BitVec 2) (a6 : Bool) : Laws.EncodeFits.Statement (.stb s a6) := (encode (.stb s a6)).isLt

theorem Laws.EncodeFits.eos : Laws.EncodeFits.Statement .eos := (encode .eos).isLt

theorem Laws.EncodeFits.vnop : Laws.EncodeFits.Statement .vnop := (encode .vnop).isLt

theorem Laws.EncodeFits.skip8 : Laws.EncodeFits.Statement .skip8 := (encode .skip8).isLt

theorem Laws.EncodeFits.pass : Laws.EncodeFits.Statement .pass := (encode .pass).isLt

theorem Laws.EncodeFits.nrmSub (h6 : BitVec 6) (mbp : Bool) : Laws.EncodeFits.Statement (.nrmSub h6 mbp) := subheader_fits h6

theorem Laws.EncodeFits.colSub (h6 : BitVec 6) (mbp : Bool) : Laws.EncodeFits.Statement (.colSub h6 mbp) := subheader_fits h6

theorem Laws.EncodeFits.reserved02 : Laws.EncodeFits.Statement .reserved02 := (encode .reserved02).isLt

theorem Laws.EncodeFits.reserved03 : Laws.EncodeFits.Statement .reserved03 := (encode .reserved03).isLt

theorem Laws.EncodeFits.reserved04 : Laws.EncodeFits.Statement .reserved04 := (encode .reserved04).isLt

theorem Laws.EncodeFits.reserved05 : Laws.EncodeFits.Statement .reserved05 := (encode .reserved05).isLt

theorem Laws.EncodeFits.reserved06 : Laws.EncodeFits.Statement .reserved06 := (encode .reserved06).isLt

theorem Laws.EncodeFits.reserved09 : Laws.EncodeFits.Statement .reserved09 := (encode .reserved09).isLt

theorem Laws.EncodeFits.reserved0A : Laws.EncodeFits.Statement .reserved0A := (encode .reserved0A).isLt

theorem Laws.EncodeFits.reserved0B : Laws.EncodeFits.Statement .reserved0B := (encode .reserved0B).isLt

theorem Laws.EncodeFits.reserved0C : Laws.EncodeFits.Statement .reserved0C := (encode .reserved0C).isLt

theorem Laws.EncodeFits.reserved0D : Laws.EncodeFits.Statement .reserved0D := (encode .reserved0D).isLt

theorem Laws.EncodeFits.reserved0E : Laws.EncodeFits.Statement .reserved0E := (encode .reserved0E).isLt

theorem Laws.EncodeFits.reserved0F : Laws.EncodeFits.Statement .reserved0F := (encode .reserved0F).isLt

theorem Laws.EncodeFits.stbReservedSelect (a6 : Bool) : Laws.EncodeFits.Statement (.stbReservedSelect a6) := (encode (.stbReservedSelect a6)).isLt

end Sys2Proof
end

