-- ==== Sys2Proof/Machine/Assemble.lean ====
section
/-! DEFINITION. The assembler of the spec's listings (30_encoding.md rules R92, R93): a program as lines, packed by the
current table entries into the interleaved stream (rule R71). The machine does not depend on it. -/

namespace Sys2Proof.Machine

/-- `NRM tag=, sex=, oct=, u=, v=` and `NRM tag=, du=, dv=`: the tag's length and value, then the coded fields. -/
inductive NormalLine where
  | absolute (t tag : Nat) (sex oct : BitVec 3) (u v : Nat)
  | relative (t tag : Nat) (du dv : Int)
deriving DecidableEq, Repr, Inhabited

/-- `COL tag=, r=, g=, b=[, a=]`. -/
structure ColorLine where
  t : Nat
  tag : Nat
  r : Int
  g : Int
  b : Int
  a : Option Int
deriving DecidableEq, Repr, Inhabited

/-- One line of a listing (30_encoding.md rules R92, R93), with the `+NRM` and `+COL` lines of a vertex inside it. -/
inductive Line where
  | stb (k : TableId) (t tag : Nat) (dl : BitVec 4) (absolute : Bool) (rs : BitVec 4)
  | sst (bn bc ba : Bool)
  | vtx (t tag : Nat) (x y z : Int) (rep : BitVec 2) (mbp : Bool) (normal : Option NormalLine) (color : Option ColorLine)
  | nrm (n : NormalLine)
  | col (c : ColorLine)
  | mbr (k : BitVec 4) (rep : BitVec 2)
  | eos
  | vnop (n : BitVec 5)
  | skip8 (v : Byte)
  | pass (a : BitVec 24) (b : BitVec 32)
  | hdr (h : Byte)
  | pad
deriving DecidableEq, Repr, Inhabited

/-- The assembler's state: the bits so far, up to the latest header; the latest command's body, in the part before and
the part after the lookahead header; and the tables as the lines so far leave them. -/
structure Assembly where
  bits : List Bool
  before : List Bool
  after : List Bool
  posTable : Table
  colTable : Table
  nrmTable : Table
deriving DecidableEq, Repr, Inhabited

/-- The start: command 0 is the implicit VNOP with count 0 (45_dispatch_control.md rule R230). -/
def Assembly.start : Assembly :=
  { bits := [], before := [], after := bitsOf 5 0
    posTable := Vector.replicate 64 none, colTable := Vector.replicate 64 none, nrmTable := Vector.replicate 64 none }

/-- The coded field width of the entry at the tag's first slot; 0 where there is none. -/
def fieldWidth (table : Table) (t tag : Nat) : Nat :=
  match (table.toList[tag * 2 ^ (6 - t)]?).join with
  | some e => e.fieldLength
  | none => 0

/-- The `L`-bit code of a signed field. -/
def codeOf (L : Nat) (v : Int) : Nat := (BitVec.ofInt L v).toNat

/-- A normal's header bits and body (30_encoding.md rule R82). -/
def packNormal (a : Assembly) : NormalLine → Packed
  | .absolute t tag sex oct u v =>
    let L := fieldWidth a.nrmTable t tag
    encodeFields t tag [(6, (sex ++ oct).toNat), (L, u), (L, v)]
  | .relative t tag du dv =>
    let L := fieldWidth a.nrmTable t tag
    encodeFields t tag [(L, codeOf L du), (L, codeOf L dv)]

/-- A color's header bits and body (30_encoding.md rule R83). -/
def packColor (a : Assembly) (c : ColorLine) : Packed :=
  let L := fieldWidth a.colTable c.t c.tag
  let channels := [c.r, c.g, c.b] ++ c.a.toList
  encodeFields c.t c.tag (channels.map fun v => (L, codeOf L v))

/-- The position part of a vertex (30_encoding.md rule R80). -/
def packVertex (a : Assembly) (t tag : Nat) (x y z : Int) (rep : BitVec 2) (mbp : Bool) : Packed :=
  let L := fieldWidth a.posTable t tag
  encodeVertex t tag L (codeOf L x) (codeOf L y) (codeOf L z) (rep ++ BitVec.ofBool mbp).toNat

/-- Append a command: the open body of the command before it takes the header between its two parts (30_encoding.md
rule R71), and the command's own body becomes the open one. -/
def Assembly.append (a : Assembly) (header : Byte) (before after : List Bool) : Assembly :=
  { a with bits := a.bits ++ a.before ++ bitsOf 8 header.toNat ++ a.after, before := before, after := after }

/-- The select value of a table (40_set_table.md rule R101). -/
def selectOfTable : TableId → BitVec 2
  | .position => 0#2
  | .color => 1#2
  | .normal => 2#2

/-- Append a vertex: the subheaders and bodies in the order of 45_dispatch_control.md rule R213. -/
def Assembly.appendVertex (a : Assembly) (p : Packed) (normal color : Option Packed) : Assembly :=
  let header : Byte := 1#2 ++ p.h6
  match normal, color with
  | none, none => a.append header [] p.body
  | some n, none => a.append header (bitsOf 6 n.h6.toNat ++ p.body) n.body
  | none, some c => a.append header (bitsOf 6 c.h6.toNat ++ p.body) c.body
  | some n, some c =>
    a.append header (bitsOf 6 n.h6.toNat ++ p.body ++ bitsOf 6 c.h6.toNat ++ n.body) c.body

/-- Append a set table and write the assembler's own table (30_encoding.md rule R87). -/
def Assembly.appendTable (a : Assembly) (k : TableId) (t tag : Nat) (dl : BitVec 4) (absolute : Bool)
    (rs : BitVec 4) : Assembly :=
  let adr : BitVec 7 := BitVec.ofNat 7 (2 ^ t + tag)
  let e : Entry :=
    { tagLength := t, dataLength := storedLength k dl.toNat, rightShift := rs.toNat, absolute := absolute }
  let a := a.append (encode (.stb (selectOfTable k) (adr.getLsbD 6))) []
    (encodeStbBody (adr.extractLsb' 0 6) dl absolute rs)
  match k with
  | .position => { a with posTable := fillSlots a.posTable adr e }
  | .color => { a with colTable := fillSlots a.colTable adr e }
  | .normal => { a with nrmTable := fillSlots a.nrmTable adr e }

/-- Append one line. `PAD` is the VNOP whose end, the lookahead header before its body counted, falls on a byte boundary
(30_encoding.md rule R93). -/
def Assembly.line (a : Assembly) : Line → Assembly
  | .stb k t tag dl absolute rs => a.appendTable k t tag dl absolute rs
  | .sst bn bc ba => a.append (encode (.sst 0#2 bn)) [] (encodeSstBody bc ba false)
  | .vtx t tag x y z rep mbp normal color =>
    a.appendVertex (packVertex a t tag x y z rep mbp) (normal.map (packNormal a)) (color.map (packColor a))
  | .nrm n => a.append (encode (.nrm (packNormal a n).h6)) [] (packNormal a n).body
  | .col c => a.append (encode (.col (packColor a c).h6)) [] (packColor a c).body
  | .mbr k rep => a.append (encode (.mbr k (rep.getLsbD 1))) [] (encodeMbrBody (rep.getLsbD 0))
  | .eos => a.append (encode .eos) [] []
  | .vnop n => a.append (encode .vnop) [] (encodeVnopBody (List.replicate n.toNat false))
  | .skip8 v => a.append (encode .skip8) [] (encodeSkip8Body v)
  | .pass x y => a.append (encode .pass) [] (encodePassBody x y)
  | .hdr h => a.append h [] []
  | .pad =>
    let a := a.append (encode .vnop) [] []
    let k := (8 - (a.bits.length + 13) % 8) % 8
    { a with after := encodeVnopBody (List.replicate k false) }

/-- The bytes of a bit string, bit 7 first; a last byte that it does not fill ends in zeros. -/
def bytesOfBits : Nat → List Bool → List Byte
  | 0, _ => []
  | n + 1, bs => BitVec.ofNat 8 (ofBits (bs.take 8) * 2 ^ (8 - (bs.take 8).length)) :: bytesOfBits n (bs.drop 8)

/-- The bytes of a listing: a zero header after the last line's command, then zeros up to a word boundary. -/
def assemble (lines : List Line) : List Byte :=
  let a := (lines.foldl Assembly.line Assembly.start).append 0x00#8 [] []
  bytesOfBits (4 * ((a.bits.length + 31) / 32)) a.bits

end Sys2Proof.Machine
end

