-- ==== Sys2Proof/Tests/Slice0.lean ====
section
/-! SUPPORT. The checks of the model's own work: well-formedness, words written out from the encoding, single steps of
the spec's vectors (95_test_vectors.md), and for every statement that has hypotheses a state that meets them. -/

namespace Sys2Proof.Tests

open Sys2Proof Sys2Proof.Machine

/-! Small states. -/

/-- The reset state on the buffer `bytes` of the host, all of it declared. -/
def onBytes (bytes : List Byte) : State :=
  { State.reset with buf := Memory.ofBytes bytes, size := bytes.length, len := bytes.length
                     hostBuf := Memory.ofBytes bytes, hostSize := bytes.length }

/-- A window with `n` unread bits 0, at the end of a buffer of four bytes. -/
def lastBits (n : Nat) : State := { onBytes [0, 0, 0, 0] with p := 4, c := n }

/-- Every slot of the three tables holds the entry. -/
def tables (e : Entry) (s : State) : State :=
  { s with posTable := Vector.replicate 64 (some e), colTable := Vector.replicate 64 (some e)
           nrmTable := Vector.replicate 64 (some e) }

/-- Every accumulator and every part of the cache holds a value. -/
def filled (s : State) : State :=
  { s with pos := some ⟨1, 2, 3⟩, color := some ⟨4, 5, 6⟩, alpha := some 7, normal := some ⟨0, 0, 0, 0⟩
           vc := Vector.replicate 16 ⟨some ⟨8, 9, 10⟩, some ⟨1, 1, 1, 1⟩, some ⟨11, 12, 13⟩, some 14⟩ }

/-- The next state, where there is one. -/
def nextOf (o : Host.Outcome State Fault Refusal) : State :=
  match o with
  | .next t => t
  | .fault _ | .refused _ => State.reset

/-- There is a next state. -/
def isNext (o : Host.Outcome State Fault Refusal) : Bool :=
  match o with
  | .next _ => true
  | .fault _ | .refused _ => false

theorem eq_nextOf {o : Host.Outcome State Fault Refusal} (h : isNext o = true) : o = .next (nextOf o) := by
  cases o <;> first | rfl | cases h

/-- The command has a next state, and no error. -/
def completes (i : Instr) (s : State) : Bool := isNext (exec i s) && !(nextOf (exec i s)).status.isError

/-- The error a state records. -/
def errorOf (s : State) : Option (Nat × Reason × Info × Int × Byte) :=
  match s.status with
  | .error e => some (e.code, e.reason, e.info, e.bitpos, e.header)
  | .idle | .run | .done => none

/-! WellFormed. -/

theorem test_wellFormed_refuses_stb_select_3 :
    (Instr.stb 3#2 false).wellFormed = false ∧ (Instr.stb 3#2 true).wellFormed = false := by decide

theorem test_wellFormed_accepts :
    (Instr.stb 0#2 true).wellFormed = true ∧ (Instr.stb 2#2 false).wellFormed = true ∧
      (Instr.stbReservedSelect true).wellFormed = true ∧ (Instr.vtx 63#6).wellFormed = true := by decide

/-! Words written out from 30_encoding.md rules R72 and R80 to R89. -/

theorem test_decode_attribute_words :
    decodeTableWord 8 0b11000101 = some (.nrm 0b000101#6) ∧ decodeTableWord 8 0b10111010 = some (.col 0b111010#6) ∧
      decodeTableWord 8 0b01011011 = some (.vtx 0b011011#6) := by decide

theorem test_decode_reference_and_state_words :
    decodeTableWord 8 0b00111110 = some (.mbr 15#4 false) ∧ decodeTableWord 8 0b00100011 = some (.mbr 1#4 true) ∧
      decodeTableWord 8 0b00011100 = some (.sst 2#2 false) ∧ decodeTableWord 8 0b00010101 = some (.stb 2#2 true) ∧
      decodeTableWord 8 0b00010110 = some (.stbReservedSelect false) := by decide

theorem test_decode_control_words :
    decodeTableWord 8 0x00 = some .eos ∧ decodeTableWord 8 0x01 = some .vnop ∧
      decodeTableWord 8 0x07 = some .skip8 ∧ decodeTableWord 8 0x08 = some .pass := by decide

theorem test_decode_reserved_words :
    [0x02, 0x03, 0x04, 0x05, 0x06, 0x09, 0x0A, 0x0B, 0x0C, 0x0D, 0x0E, 0x0F].map (decodeTableWord 8) =
      [some .reserved02, some .reserved03, some .reserved04, some .reserved05, some .reserved06, some .reserved09,
        some .reserved0A, some .reserved0B, some .reserved0C, some .reserved0D, some .reserved0E,
        some .reserved0F] := by decide

theorem test_decode_subheaders :
    decodeNormalSub 0b110010#6 true = .nrmSub 0b110010#6 true ∧
      decodeColorSub 0b001111#6 false = .colSub 0b001111#6 false := by decide

/-- A body behind the header does not change the command: STB 0x10 with body 0x0AA2. -/
theorem test_decode_ignores_body : decodeTableWord 24 0x441510 = some (.stb 0#2 false) := by decide

/-! The bit-field extractor: vectors B1 and B6. -/

theorem test_getBits_B6 :
    (match (do let a ← getBits 31; let b ← getBits 2; return (a, b) : Op (Nat × Nat))
        (onBytes [0x12, 0x34, 0x56, 0x78, 0x9A, 0xBC, 0xDE, 0xF0]) with
      | .ok r t => some (r, t.p, t.c, t.w)
      | .error _ _ => none) = some ((0x091A2B3C, 1), 8, 31, 0x3579BDE0#32) := by decide

/-! Single commands. -/

/-- T2: header 0x10, body 0x0AA2. -/
theorem test_stb_T2 :
    let t := nextOf (exec (.stb 0#2 false) (onBytes [0x15, 0x44, 0, 0]))
    [15, 16, 31, 32].map (fun i => t.posTable.toList.getD i none) =
      [none, some ⟨2, 5, 2, false⟩, some ⟨2, 5, 2, false⟩, none] := by decide

/-- T4: a coded dl of 0 stays 0 in the normal table. -/
theorem test_stb_T4 :
    (nextOf (exec (.stb 2#2 false) (onBytes [0x04, 0x20, 0, 0]))).nrmTable.toList.getD 63 none =
      some ⟨0, 0, 0, true⟩ := by decide

/-- The worked example of 30_encoding.md rule R86: 0x19 with body 110. -/
theorem test_sst :
    let t := nextOf (exec (.sst 0#2 true) (onBytes [0xC0, 0, 0, 0]))
    (t.bn, t.bc, t.ba, t.events) = (true, true, true, [Event.vertexFormat true true true]) := by decide

/-- V7: t 2, tag 10, L 3, header 0x67, body 010 00111, behind a lookahead header 0x00. -/
theorem test_vtx_V7 :
    let t := nextOf (exec (.vtx 0x27#6) (tables ⟨2, 3, 0, true⟩ (onBytes [0, 0x47, 0, 0])))
    (t.pos, t.rep, t.wi, t.bitpos) = (some ⟨3, -4, -1⟩, 1#2, 15#4, 16) := by decide

/-- V3: the replace code and push bit lie partly in the header 0x6C. -/
theorem test_vtx_V3 :
    let t := nextOf (exec (.vtx 0x2C#6) (tables ⟨2, 1, 0, true⟩ (onBytes [0, 0xC0, 0, 0])))
    (t.pos, t.rep, t.wi, (t.slot 0#4).pos, t.bitpos) = (some ⟨-1, -1, 0⟩, 1#2, 0#4, some ⟨-1, -1, 0⟩, 10) := by decide

/-- N3: sextant 0, octant 0, u 40, v 24. -/
theorem test_nrm_N3 :
    (nextOf (exec (.nrm 0x20#6) (tables ⟨1, 6, 0, true⟩ (onBytes [0x50, 0xC0, 0, 0])))).normal =
      some ⟨0, 0, 40, 24⟩ := by decide

/-- N4: a uv-wrap takes (0, 0, 40, 24) + (0, 1) to (2, 0, 24, 39). -/
theorem test_nrm_N4 :
    (nextOf (exec (.nrm 0#6)
      { tables ⟨1, 3, 0, false⟩ (onBytes [0x80, 0, 0, 0]) with normal := some ⟨0, 0, 40, 24⟩ })).normal =
      some ⟨2, 0, 24, 39⟩ := by decide

/-- N0j: sextant 3 and octant 5 of NQT[16][16] = (14045, 2511, 8054) give (-0.4915771484375, 0.85723876953125,
-0.15325927734375). -/
theorem test_convert_N0j :
    convert defaultParams ⟨3, 5, 16, 16⟩ = ⟨0xBEFBB000#32, 0x3F5B7400#32, 0xBE1CF000#32⟩ := by decide

/-- K4: a relative color without alpha wraps and leaves A. -/
theorem test_col_K4 :
    let t := nextOf (exec (.col 0x0A#6)
      { tables ⟨1, 2, 0, false⟩ (onBytes [0x80, 0, 0, 0]) with color := some ⟨-32768, 32767, -2⟩, alpha := some 101 })
    (t.color, t.alpha, t.bitpos) = (some ⟨-32767, -32768, -1⟩, some 101, 1) := by decide

/-- The worked example of 30_encoding.md rule R85: 0x23 with body bit 0. -/
theorem test_mbr :
    let t := nextOf (exec (.mbr 1#4 true) (filled (onBytes [0, 0, 0, 0])))
    (t.rep, t.pos, t.wi, t.useMn) = (2#2, some ⟨8, 9, 10⟩, 15#4, true) := by decide

theorem test_vnop : (nextOf (exec .vnop (onBytes [0x1F, 0xFF, 0, 0]))).bitpos = 8 := by decide

theorem test_skip8 : (nextOf (exec .skip8 (onBytes [0xFF, 0, 0, 0]))).bitpos = 8 := by decide

theorem test_pass : (nextOf (exec .pass (onBytes [1, 2, 3, 4, 5, 6, 7, 8]))).bitpos = 56 := by decide

/-- The promotion of 30_encoding.md rule R88: the subheaders 110010 and 001111. -/
theorem test_subheaders_promote :
    let s := { tables ⟨0, 0, 0, true⟩ (onBytes [0xA5, 0, 0, 0]) with bn := true }
    let c := { tables ⟨0, 1, 0, true⟩ (onBytes [0x5A, 0, 0, 0]) with bc := true }
    (nextOf (exec (.nrmSub 0b110010#6 true) s)).cur = 0xF2#8 ∧ (nextOf (exec (.nrmSub 0b110010#6 true) s)).nxt = 0xA5#8 ∧
      ((nextOf (exec (.nrmSub 0b110010#6 true) s)).slot 15#4).normal = some ⟨6, 2, 0, 0⟩ ∧
      (nextOf (exec (.colSub 0b101111#6 false) c)).cur = 0xAF#8 ∧
      (nextOf (exec (.colSub 0b101111#6 false) c)).color = some ⟨-1, 0, -1⟩ := by decide

theorem test_reserved_error :
    errorOf (nextOf (exec .reserved05 { onBytes [0, 0, 0, 0] with cur := 0x05#8 })) =
      some (3, .reservedOpcode, .header 0x05#8, 0, 0x05#8) := by decide

/-- A vertex with BN = BC = 1 whose normal finds no table entry ends in the error of the normal, with its promoted
header 0xC0. -/
theorem test_vtx_normal_error :
    errorOf (nextOf (exec (.vtx 0) { tables ⟨0, 1, 0, true⟩ (onBytes [0, 0, 0, 0]) with
      bn := true, bc := true, nrmTable := Vector.replicate 64 none })) =
      some (3, .unsetTableEntry, .slot .normal 0, 12, 0xC0#8) := by decide

/-- E8: a decoder built for (1, 0) accepts (1, 0) and (0, 9), rejects (1, 1) and (2, 0). -/
theorem test_version_E8 :
    [(1, 0), (0, 9), (1, 1), (2, 0)].map (fun v => versionOk defaultParams v.1 v.2 0) = [true, true, false, false] := by
  decide

/-- The first step of the stream `18 00 00 00`: the implicit VNOP takes 8 + 5 bits, and NXT is the SST header. -/
theorem test_first_step :
    let t := nextOf (step (onBytes [0x18, 0, 0, 0]))
    (t.cur, t.nxt, t.bitpos) = (0x01#8, 0x18#8, 13) := by decide

theorem test_withFetchWord : (nextOf (step (State.reset.withFetchWord 8 0x10))).posTable.toList.getD 5 none =
    some ⟨0, 16, 0, false⟩ := by decide

/-! The listings of 95_test_vectors.md section 3, packed to the bytes it prints. -/

theorem test_assemble_P1 :
    assemble [.stb .position 6 0 1 true 0, .sst false false false, .vtx 6 0 0 0 0 0 false none none, .eos, .pad] =
      [0x11, 0x00, 0xC0, 0x03, 0x04, 0x00, 0x00, 0x00, 0x08, 0x01, 0x80, 0x00] := by decide +kernel

theorem test_assemble_P3 :
    assemble [.stb .position 1 1 0 true 0, .stb .position 1 0 4 false 0, .stb .normal 1 1 6 true 0,
      .stb .normal 1 0 3 false 0, .stb .color 1 1 0 true 8, .stb .color 1 0 4 false 0, .sst true true true,
      .vtx 1 1 8192 0 (-8192) 0 true (some (.absolute 1 1 0 0 0 30)) (some ⟨1, 1, 127, 0, -128, some 64⟩),
      .vtx 1 0 1 2 (-3) 3 true (some (.relative 1 0 (-1) 0)) (some ⟨1, 0, -1, 2, 3, some (-4)⟩),
      .nrm (.relative 1 0 0 1), .mbr 1 1, .eos] =
      [0x10, 0x00, 0x80, 0x61, 0x01, 0x40, 0x90, 0x02, 0x81, 0xB4, 0x04, 0x82, 0x30, 0x09, 0x06, 0x18, 0x19, 0x09, 0x00,
        0xC9, 0xA0, 0x20, 0x00, 0x00, 0x03, 0x80, 0x02, 0xF0, 0x0F, 0x21, 0x70, 0x08, 0x04, 0x07, 0x3A, 0xD7, 0x98,
        0x08, 0xF0, 0x8A, 0x01, 0x00, 0x00, 0x00] := by decide +kernel

/-! For every statement that has hypotheses: states and operands that meet them, clause by clause. -/

theorem witness_GetBitsReadsNextBits :
    (32 ≤ 32 ∧ Readable (onBytes [1, 2, 3, 4]) 32) ∧ (0 ≤ 32 ∧ Readable State.reset 0) ∧
      (1 ≤ 32 ∧ State.reset.c < 1 ∧ State.reset.endAddr < State.reset.p + 4) ∧
      (32 ≤ 32 ∧ (lastBits 31).c < 32 ∧ (lastBits 31).endAddr < (lastBits 31).p + 4) := by decide

theorem witness_SequentialReadsReproduceTheBytes :
    let s := onBytes [1, 2, 3, 4, 5, 6, 7, 8]
    s.p = s.start ∧ s.c = 0 ∧ (∀ n ∈ [0, 32, 5, 27], n ≤ 32) ∧ Readable s [0, 32, 5, 27].sum := by decide

theorem witness_UnpackReadsConsecutiveFields :
    (6 ≤ 6 ∧ (∀ w ∈ [32], w ≤ 32) ∧ Readable (onBytes [1, 2, 3, 4]) ([32].sum - (6 - 6))) ∧
      (0 ≤ 6 ∧ (∀ w ∈ [16, 16, 6], w ≤ 32) ∧ Readable (onBytes [1, 2, 3, 4]) ([16, 16, 6].sum - (6 - 0))) := by decide

theorem witness_PackedFieldsUnpack :
    let s := onBytes [0xFF, 0xF0, 0, 0]
    let fields := [(16, 0xFFFF), (5, 0)]
    2 ≤ 6 ∧ 1 < 2 ^ 2 ∧ (∀ f ∈ fields, f.1 ≤ 32 ∧ f.2 < 2 ^ f.1) ∧
      Readable s (encodeFields 2 1 fields).body.length ∧ Follows s 0 (encodeFields 2 1 fields).body := by decide

theorem witness_PackedVertexExecutes :
    (let e : Entry := ⟨2, 4, 0, true⟩
     let s := tables e (onBytes [0, 0xB1, 0xE0, 0])
     let packed := encodeVertex e.tagLength 1 e.fieldLength 7 8 15 5
     1 < 2 ^ e.tagLength ∧ 15 < 2 ^ e.fieldLength ∧ 3 ≤ e.tagLength + 3 * e.fieldLength ∧
       Selects s .position packed.h6 e ∧ e.absolute = true ∧ s.bn = false ∧ s.bc = false ∧
       Readable s (8 + packed.body.length) ∧ Follows s 8 packed.body) ∧
    (let e : Entry := ⟨3, 1, 1, true⟩
     let s := tables e (onBytes [0, 0, 0, 0])
     let packed := encodeVertex e.tagLength 7 e.fieldLength 0 0 0 7
     7 < 2 ^ e.tagLength ∧ 0 < 2 ^ e.fieldLength ∧ 3 ≤ e.tagLength + 3 * e.fieldLength ∧
       Selects s .position packed.h6 e ∧ e.absolute = true ∧ s.bn = false ∧ s.bc = false ∧
       Readable s (8 + packed.body.length) ∧ Follows s 8 packed.body) := by decide

theorem witness_HeadersDecodeAndEncode :
    (Instr.stb 2#2 true).wellFormed = true ∧ headerWidth (.stb 2#2 true) = 8 := by decide

theorem witness_StepRunsDecodedCommand :
    (let s := { onBytes [0, 0, 0, 0] with nxt := 0x7F#8 }
     s.call = none ∧ s.status = .run ∧ s.moreBits = true ∧ s.nxt.extractLsb' 6 2 = 1#2) ∧
    (let s := onBytes [0, 0, 0, 0]
     s.call = none ∧ s.status = .run ∧ s.moreBits = true ∧ s.nxt.extractLsb' 6 2 ≠ 1#2 ∧ Readable s 8) ∧
    (let s := { lastBits 8 with nxt := 0x80#8 }
     s.call = none ∧ s.status = .run ∧ s.moreBits = true ∧ s.nxt.extractLsb' 6 2 ≠ 1#2 ∧ Readable s 8) := by decide

theorem witness_LookaheadPastEndRaises :
    (let s := lastBits 7
     s.endAddr < s.p + 4 ∧ s.call = none ∧ s.status = .run ∧ s.moreBits = true ∧ s.nxt.extractLsb' 6 2 ≠ 1#2 ∧ s.c < 8) ∧
    (let s := onBytes [0, 0, 0]
     s.endAddr < s.p + 4 ∧ s.call = none ∧ s.status = .run ∧ s.moreBits = true ∧ s.nxt.extractLsb' 6 2 ≠ 1#2 ∧ s.c < 8) ∧
    (let s := { lastBits 7 with nxt := 0x7F#8 }
     s.endAddr < s.p + 4 ∧ s.call = none ∧ s.status = .run ∧ s.moreBits = true ∧ s.nxt.extractLsb' 6 2 = 1#2 ∧
       ¬(s.bn = true ∨ s.bc = true) ∧ s.c < 8) ∧
    (let s := { lastBits 5 with nxt := 0x7F#8, bn := true }
     s.endAddr < s.p + 4 ∧ s.call = none ∧ s.status = .run ∧ s.moreBits = true ∧ s.nxt.extractLsb' 6 2 = 1#2 ∧
       (s.bn = true ∨ s.bc = true) ∧ s.c < 6) ∧
    (let s := { lastBits 5 with bc := true }
     s.endAddr < s.p + 4 ∧ s.c < (if s.bc then 6 else 8)) ∧
    (let s := lastBits 7
     s.endAddr < s.p + 4 ∧ s.c < (if s.bc then 6 else 8)) := by decide

theorem witness_ExhaustedOrStoppedDecodeRunsNothing :
    (State.reset.call = none ∧ State.reset.status = .run ∧ State.reset.endAddr ≤ State.reset.p ∧ State.reset.c = 0) ∧
      (let s := { State.reset with status := .done }
       s.call = none ∧ s.status = .done) ∧
      (let s := { State.reset with status := .idle }
       s.call = none ∧ s.status = .idle) ∧
      (let s := { State.reset with status := .error ⟨1, .precheck, .endAddress 9, 0, 0⟩ }
       s.call = none ∧ s.status.isError = true) := by decide

/-- The end of an exhausted decode: DONE, then IDLE until the host calls (60_exceptions.md rule R266). -/
theorem test_end_of_decode :
    (nextOf (step State.reset)).status = .done ∧ (nextOf (step (nextOf (step State.reset)))).status = .idle := by decide

theorem witness_ErrorEntryRecords :
    (Reason.outOfDomain, 4) ∈ [(Reason.refillPastEnd, 1), (.reservedOpcode, 3), (.reservedTable, 3), (.unsetTableEntry, 3),
      (.negativeLength, 3), (.positionOverfit, 3), (.undefinedRead, 3), (.noWrapCase, 4), (.outOfDomain, 4)] ∧
    (Reason.version, 2) ∈ [(Reason.precheck, 1), (.version, 2)] := by decide

/-- A stopped machine with a Decode call of four bytes. -/
def calling (start len vmaj vmin : Nat) : State :=
  { State.reset with status := .idle, call := some (.decode (some [1, 2, 3, 4]) start len vmaj vmin 7) }

/-- A stopped machine with a Decode call on the four bytes its host holds. -/
def callingAgain (start len vmaj vmin : Nat) : State :=
  { onBytes [1, 2, 3, 4] with status := .done, call := some (.decode none start len vmaj vmin 7) }

/-- The size of the array that the call of `calling` or `callingAgain` passes. -/
def passedSize (array : Option (List Byte)) (s : State) : Nat := (array.map List.length).getD s.hostSize

theorem witness_DecodeStartResets :
    (calling 1 3 1 0).call = some (.decode (some [1, 2, 3, 4]) 1 3 1 0 7) ∧ (calling 1 3 1 0).status ≠ .run ∧
      1 + 3 ≤ passedSize (some [1, 2, 3, 4]) (calling 1 3 1 0) ∧ versionOk (calling 1 3 1 0).params 1 0 7 = true ∧
      (calling 1 3 1 0).params.unwrittenRead = .fault ∧
      ((callingAgain 1 3 1 0).call = some (.decode none 1 3 1 0 7) ∧ (callingAgain 1 3 1 0).status ≠ .run ∧
        1 + 3 ≤ passedSize none (callingAgain 1 3 1 0) ∧ versionOk (callingAgain 1 3 1 0).params 1 0 7 = true) ∧
      (let p : Params := { defaultParams with unwrittenRead := .zero }
       versionOk p 1 0 7 = true ∧ p.unwrittenRead = .zero) := by decide

theorem witness_PrechecksRejectBeforeDecoding :
    ((calling 1 4 1 0).call = some (.decode (some [1, 2, 3, 4]) 1 4 1 0 7) ∧ (calling 1 4 1 0).status ≠ .run ∧
      passedSize (some [1, 2, 3, 4]) (calling 1 4 1 0) < 1 + 4) ∧
    ((callingAgain 1 4 1 0).call = some (.decode none 1 4 1 0 7) ∧ (callingAgain 1 4 1 0).status ≠ .run ∧
      passedSize none (callingAgain 1 4 1 0) < 1 + 4) ∧
    ((calling 0 4 1 1).call = some (.decode (some [1, 2, 3, 4]) 0 4 1 1 7) ∧ (calling 0 4 1 1).status ≠ .run ∧
      0 + 4 ≤ passedSize (some [1, 2, 3, 4]) (calling 0 4 1 1) ∧
      versionOk (calling 0 4 1 1).params 1 1 7 = false) := by decide

/-- A decode of the bytes 1 and 2 of a buffer of four runs, and the host writes a 9 to the address. -/
def inWindow (address : Nat) : State :=
  { onBytes [1, 2, 3, 4] with start := 1, len := 2, p := 1, call := some (.writeBuffer address 9) }

theorem witness_HostCallsRefusedOrWriteOneByte :
    (let s := { State.reset with call := some (.decode none 0 0 1 0 0) }
     s.status = .run ∧ s.call = some (.decode none 0 0 1 0 0)) ∧
    (let s := inWindow 1
     s.status = .run ∧ s.call = some (.writeBuffer 1 9) ∧ s.start ≤ 1 ∧ 1 < s.endAddr) ∧
    (let s := inWindow 2
     s.status = .run ∧ s.call = some (.writeBuffer 2 9) ∧ s.start ≤ 2 ∧ 2 < s.endAddr) ∧
    (let s := inWindow 0
     s.call = some (.writeBuffer 0 9) ∧ 0 < s.start ∧ Memory.wf s.hostSize s.hostBuf = true ∧ 0 < s.hostSize) ∧
    (let s := inWindow 3
     s.call = some (.writeBuffer 3 9) ∧ s.endAddr ≤ 3 ∧ Memory.wf s.hostSize s.hostBuf = true ∧ 3 < s.hostSize) ∧
    (let s := { inWindow 1 with status := .done }
     s.status ≠ .run ∧ s.call = some (.writeBuffer 1 9) ∧ Memory.wf s.hostSize s.hostBuf = true ∧ 1 < s.hostSize) ∧
    (let s := inWindow 4
     s.call = some (.writeBuffer 4 9) ∧ s.endAddr ≤ 4 ∧ s.hostSize ≤ 4) := by decide

/-- A write before the stream of a running decode changes the host's array; the latched BUF stays, and a later Decode
call on the host's array sees the write (20_memory.md rule R64). -/
theorem test_host_write :
    let t := nextOf (step (inWindow 0))
    let u := nextOf (step { t with status := .done, call := some (.decode none 0 4 1 0 0) })
    ([0, 1, 2, 3].map t.hostBuf.read, [0, 1, 2, 3].map t.buf.read, t.call, t.p, t.status) =
        ([9, 2, 3, 4], [1, 2, 3, 4], none, 1, .run) ∧
      ([0, 1, 2, 3].map u.buf.read, u.len, u.status) = ([9, 2, 3, 4], 4, .run) := by decide

theorem witness_StbFillsTaggedSlots :
    (2#2, TableId.normal) ∈ [(0#2, TableId.position), (1#2, .color), (2#2, .normal)] ∧
      Readable (onBytes [0, 0, 0, 0]) 15 ∧ Readable (lastBits 15) 15 := by decide

theorem witness_FilledSlotsShareTheTag : (1 : BitVec 7) ≠ 0 ∧ (127 : BitVec 7) ≠ 0 := by decide

theorem witness_LaterTableWriteWins :
    let inRange := fun (adr : BitVec 7) (i : Fin 64) =>
      baseSlot adr ≤ i.val ∧ i.val < baseSlot adr + 2 ^ (6 - highestSetBit adr)
    inRange 4 15 ∧ (inRange 2 16 ∧ ¬inRange 4 16) ∧ (inRange 2 31 ∧ ¬inRange 4 31) ∧
      (¬inRange 2 32 ∧ ¬inRange 4 32) := by decide

theorem witness_SstSetsBundlingFlags : Readable (lastBits 3) 3 ∧ Readable (onBytes [0xC0, 0, 0, 0]) 3 := by decide

theorem witness_ControlCommandsOnlySkip :
    (Readable (lastBits 5) 5 ∧ Readable (lastBits 5) (5 + peek (lastBits 5) 0 5)) ∧
      (let s := onBytes [0xFF, 0xFF, 0xFF, 0xFF, 0xFF, 0, 0, 0]
       Readable s 5 ∧ Readable s (5 + peek s 0 5)) ∧
      Readable (lastBits 8) 8 ∧ Readable (onBytes [1, 2, 3, 4, 5, 6, 7, 8]) 56 := by decide

/-- The hypotheses of `BodyPastEndRaises`. -/
abbrev Dry (s : State) (i : Instr) (before : List Nat) (n : Nat) (rest : List Nat) : Prop :=
  requests s i = before ++ n :: rest ∧ RunsDry s before.sum n

theorem witness_BodyPastEndRaises_control :
    Dry (lastBits 2) (.sst 0 true) [] 3 [] ∧ Dry (lastBits 14) (.stb 2 true) [] 15 [] ∧
      Dry (lastBits 0) (.mbr 15 true) [] 1 [] ∧ Dry (lastBits 4) .vnop [] 5 [0] ∧
      Dry { lastBits 9 with w := 0x28000000#32 } .vnop [5] 5 [] ∧ Dry (lastBits 7) .skip8 [] 8 [] ∧
      Dry (lastBits 23) .pass [] 24 [32] ∧ Dry (lastBits 32) .pass [24] 32 [] := by decide

theorem witness_BodyPastEndRaises_attributes :
    Dry (tables ⟨0, 7, 0, true⟩ (lastBits 6)) (.nrm 5) [] 7 [7] ∧
      Dry (tables ⟨0, 7, 0, true⟩ (lastBits 13)) (.nrm 5) [7] 7 [] ∧
      Dry (tables ⟨1, 7, 0, false⟩ (lastBits 8)) (.nrm 5) [2] 7 [] ∧
      Dry (tables ⟨6, 4, 0, true⟩ (lastBits 11)) (.col 5) [4, 4] 4 [] ∧
      Dry { tables ⟨0, 2, 0, true⟩ (lastBits 1) with ba := true } (.col 5) [] 2 [] := by decide

theorem witness_BodyPastEndRaises_vertex :
    Dry (tables ⟨0, 1, 0, true⟩ (lastBits 7)) (.vtx 5) [] 8 [0] ∧
      Dry { tables ⟨0, 1, 0, true⟩ (lastBits 5) with bn := true } (.vtx 5) [] 6 [0] ∧
      Dry (tables ⟨2, 4, 0, true⟩ (lastBits 10)) (.vtx 5) [8] 3 [4, 4] ∧
      Dry (tables ⟨2, 4, 0, false⟩ (lastBits 18)) (.vtx 5) [8, 3, 4] 4 [] ∧
      Dry { tables ⟨2, 4, 0, false⟩ (lastBits 16) with bc := true } (.vtx 5) [6, 3, 4] 4 [] := by decide

theorem witness_BodyPastEndRaises_bundled :
    Dry (tables ⟨0, 7, 0, true⟩ (lastBits 7)) (.nrmSub 5 true) [] 8 [7, 7] ∧
      Dry { tables ⟨0, 7, 0, true⟩ (lastBits 12) with bn := true, bc := true } (.nrmSub 5 false) [6] 7 [7] ∧
      Dry (tables ⟨0, 2, 0, true⟩ (lastBits 7)) (.colSub 5 true) [] 8 [] ∧
      Dry { tables ⟨0, 2, 0, true⟩ (lastBits 9) with bc := true, ba := true } (.colSub 5 false) [8] 2 [] := by decide

/-- A vertex whose last 4-bit field finds 3 bits left: bitpos stands where that field begins, 15 bits behind offset 14. -/
theorem test_vtx_body_past_end :
    errorOf (nextOf (exec (.vtx 5) (tables ⟨2, 4, 0, true⟩ (lastBits 18)))) =
      some (1, .refillPastEnd, .cursor 4, 29, 0) := by decide

theorem witness_UnbundledVertexExecutes :
    (let e : Entry := ⟨6, 16, 0, true⟩
     let s := tables e (onBytes [0, 0, 0, 0, 0, 0, 0, 0])
     Selects s .position 0x2D#6 e ∧ 3 ≤ e.tagLength + 3 * e.fieldLength ∧ s.bn = false ∧ s.bc = false ∧
       (e.absolute = false → s.pos = some ⟨0, 0, 0⟩) ∧ Readable s (8 + (e.tagLength + 3 * e.fieldLength - 3))) ∧
    (let e : Entry := ⟨0, 1, 0, false⟩
     let s := { tables e (onBytes [0, 0, 0, 0]) with pos := some ⟨1, 2, 3⟩ }
     Selects s .position 0x2D#6 e ∧ 3 ≤ e.tagLength + 3 * e.fieldLength ∧ s.bn = false ∧ s.bc = false ∧
       (e.absolute = false → s.pos = some ⟨1, 2, 3⟩) ∧ Readable s (8 + (e.tagLength + 3 * e.fieldLength - 3))) := by decide

/-- A stream on which a vertex with bundled attributes runs: one entry for all tables, BN and BC as given. -/
def bundling (bn bc absolute : Bool) : State :=
  { tables ⟨0, 1, 0, absolute⟩ (filled (onBytes [0, 0, 0, 0, 0, 0, 0, 0])) with bn := bn, bc := bc, ba := true }

/-- The same with no usable normal or color entry: the bundled attribute ends in an error. -/
def bundlingUnset (bn bc : Bool) : State :=
  { bundling bn bc true with nrmTable := Vector.replicate 64 none, colTable := Vector.replicate 64 none }

/-- What the bundled normal of a vertex 0 in `s` answers. -/
def normalPart (s : State) : Host.Outcome State Fault Refusal :=
  exec (.nrmSub (BitVec.ofNat 6 (peek s 0 6)) ((vertexRm s 0 ⟨0, 1, 0, true⟩ 6).getLsbD 0))
    (positioned s 0 ⟨0, 1, 0, true⟩ 6 ⟨1, 2, 3⟩)

/-- What the bundled color of a vertex 0 in `s` answers. -/
def colorPart (s : State) : Host.Outcome State Fault Refusal :=
  exec (.colSub (BitVec.ofNat 6 (peek s 0 6)) ((vertexRm s 0 ⟨0, 1, 0, true⟩ 6).getLsbD 0))
    (positioned s 0 ⟨0, 1, 0, true⟩ 6 ⟨1, 2, 3⟩)

/-- The hypotheses that the bundled vertex statements share, for a vertex 0 in `s`. -/
abbrev VertexReady (s : State) : Prop :=
  Selects s .position 0 ⟨0, 1, 0, true⟩ ∧ 3 ≤ (⟨0, 1, 0, true⟩ : Entry).tagLength + 3 * (⟨0, 1, 0, true⟩ : Entry).fieldLength ∧
    s.status = .run ∧ Readable s (6 + (0 + 3 * 1 - 3))

theorem witness_VertexWithNormalExecutes :
    (let s := bundling true false true
     VertexReady s ∧ s.bn = true ∧ s.bc = false ∧ isNext (normalPart s) = true ∧ (nextOf (normalPart s)).status = .run ∧
       Emits (nextOf (normalPart s)) ⟨0, 0, 0⟩ ⟨0, 0, 0, 0⟩ ⟨0, 0, 0⟩ 0) ∧
    (let s := bundlingUnset true false
     VertexReady s ∧ s.bn = true ∧ s.bc = false ∧ isNext (normalPart s) = true ∧
       (nextOf (normalPart s)).status ≠ .run) := by decide +kernel

theorem witness_VertexWithColorExecutes :
    (let s := bundling false true true
     VertexReady s ∧ s.bn = false ∧ s.bc = true ∧ isNext (colorPart s) = true ∧ (nextOf (colorPart s)).status = .run ∧
       Emits (nextOf (colorPart s)) ⟨0, 0, 0⟩ ⟨0, 0, 0, 0⟩ ⟨0, 0, 0⟩ 0) ∧
    (let s := bundlingUnset false true
     VertexReady s ∧ s.bn = false ∧ s.bc = true ∧ isNext (colorPart s) = true ∧
       (nextOf (colorPart s)).status ≠ .run) := by decide +kernel

theorem witness_VertexWithNormalAndColorExecutes :
    (let s := bundling true true true
     let u := nextOf (normalPart s)
     let o := exec (.colSub (u.nxt.setWidth 6) ((vertexRm s 0 ⟨0, 1, 0, true⟩ 6).getLsbD 0)) u
     VertexReady s ∧ s.bn = true ∧ s.bc = true ∧ isNext (normalPart s) = true ∧ u.status = .run ∧ isNext o = true ∧
       (nextOf o).status = .run ∧ Emits (nextOf o) ⟨0, 0, 0⟩ ⟨0, 0, 0, 0⟩ ⟨0, 0, 0⟩ 0) ∧
    (let s := { bundling true true true with colTable := Vector.replicate 64 none }
     let u := nextOf (normalPart s)
     let o := exec (.colSub (u.nxt.setWidth 6) ((vertexRm s 0 ⟨0, 1, 0, true⟩ 6).getLsbD 0)) u
     VertexReady s ∧ s.bn = true ∧ s.bc = true ∧ isNext (normalPart s) = true ∧ u.status = .run ∧ isNext o = true ∧
       (nextOf o).status ≠ .run) ∧
    (let s := bundlingUnset true true
     VertexReady s ∧ s.bn = true ∧ s.bc = true ∧ isNext (normalPart s) = true ∧
       (nextOf (normalPart s)).status ≠ .run) := by decide +kernel

theorem witness_VertexErrorsRaise :
    (let s := lastBits 8
     s.bn = false ∧ s.bc = false ∧ Readable s 8 ∧ s.entryAt .position 5 = none) ∧
    (let s := { tables ⟨0, 1, 2, true⟩ (lastBits 6) with bn := true }
     Readable s 6 ∧ s.entryAt .position 5 = some ⟨0, 1, 2, true⟩ ∧ 1 < 2) ∧
    (let s := tables ⟨2, 4, 4, true⟩ (lastBits 8)
     Readable s 8 ∧ Selects s .position 5 ⟨2, 4, 4, true⟩ ∧ 2 + 3 * (⟨2, 4, 4, true⟩ : Entry).fieldLength < 3) ∧
    (let s := tables ⟨0, 1, 0, false⟩ (lastBits 8)
     Readable s 8 ∧ Selects s .position 5 ⟨0, 1, 0, false⟩ ∧ s.pos = none ∧ Readable s (8 + (0 + 3 * 1 - 3))) := by decide

theorem witness_VertexPushWritesItsParts :
    (let s := bundling true true true
     Selects s .position 1 ⟨0, 1, 0, true⟩ ∧ Readable s (6 + (0 + 3 * 1 - 3)) ∧ completes (.vtx 1) s = true ∧
       (vertexRm s 1 ⟨0, 1, 0, true⟩ 6).getLsbD 0 = true) ∧
    (let s := bundling false false false
     Selects s .position 0 ⟨0, 1, 0, false⟩ ∧ Readable s (8 + (0 + 3 * 1 - 3)) ∧ completes (.vtx 0) s = true ∧
       (vertexRm s 0 ⟨0, 1, 0, false⟩ 8).getLsbD 0 = false) := by decide +kernel

theorem witness_AbsoluteNormalExecutes :
    let e : Entry := ⟨0, 7, 0, true⟩
    let u := fun s => dataField s 0 6 0 6 e.fieldLength * 2 ^ e.rightShift
    let v := fun s => dataField s 0 6 0 (6 + e.fieldLength) e.fieldLength * 2 ^ e.rightShift
    (let s := tables e (onBytes [0x80, 0, 0, 0])
     Selects s .normal 0 e ∧ Readable s (e.tagLength + 2 * e.fieldLength) ∧ u s + v s = 64) ∧
    (let s := tables e (onBytes [0x80, 0x04, 0, 0])
     Selects s .normal 0 e ∧ Readable s (e.tagLength + 2 * e.fieldLength) ∧ u s + v s = 65) := by decide

/-- A relative normal entry of 7 bits, the normal (0, 0, 0, v), and the stream `bytes`. -/
def relativeNormalState (v : Int) (bytes : List Byte) : State :=
  { tables ⟨0, 7, 0, false⟩ (onBytes bytes) with normal := some ⟨0, 0, 0, v⟩ }

theorem witness_RelativeNormalExecutes :
    let e : Entry := ⟨0, 7, 0, false⟩
    let u := fun s h6 => signedInt e.fieldLength e.rightShift (dataField s h6 6 0 0 e.fieldLength)
    let v := fun s h6 => signedInt e.fieldLength e.rightShift (dataField s h6 6 0 e.fieldLength e.fieldLength)
    (let s := relativeNormalState 64 [0, 0, 0, 0]
     Selects s .normal 0 e ∧ Readable s (2 * e.fieldLength - 6) ∧ u s 0 = 0 ∧ 64 + v s 0 = 64) ∧
    (let s := relativeNormalState 0 [0x80, 0, 0, 0]
     u s 63 = -1 ∧ v s 63 = 0 ∧ wrapNormal ⟨0, 0, -1, 0⟩ = some ⟨4, 0, 1, 0⟩ ∧ inDomain 1 0 = true) ∧
    (let s := relativeNormalState 1 [0, 0, 0, 0]
     u s 32 = -64 ∧ 1 + v s 32 = 1 ∧ wrapNormal ⟨0, 0, -64, 1⟩ = some ⟨4, 0, 64, 1⟩ ∧ inDomain 64 1 = false) ∧
    (let s := relativeNormalState 0 [0xFF, 0, 0, 0]
     u s 63 = -1 ∧ v s 63 = -1) := by decide

theorem witness_WrapCorrectsOnce :
    ((-1 : Int) < 0 ∧ (0 : Int) ≤ 0) ∧ ((0 : Int) ≤ 0 ∧ (-1 : Int) < 0) ∧
      ((0 : Int) ≤ 65 ∧ (0 : Int) ≤ 0 ∧ (64 : Int) < 65 + 0) ∧ ((-1 : Int) < 0 ∧ (-1 : Int) < 0) := by decide

theorem witness_VWrapNegatesTheComponentOfV : (5#3).toNat ≤ 5 := by decide

theorem witness_ConversionPermutesThenFlips :
    (5#3).toNat ≤ 5 ∧ inDomain 64 0 = true ∧
      (defaultParams.nqt[(0 : Int).toNat]?).bind (·[(64 : Int).toNat]?) = some ⟨16384, 0, 0⟩ := by decide

theorem witness_SpecialNormalsIgnoreUV :
    6 ≤ (6#3).toNat ∧ wrapNormal ⟨6, 0, -1, 0⟩ = some ⟨6, 0, 1, 0⟩ := by decide

theorem witness_AttributeErrorsRaise :
    (State.reset.entryAt .normal 5 = none ∧ State.reset.entryAt .color 5 = none) ∧
    (let s := tables ⟨0, 1, 2, true⟩ State.reset
     s.entryAt .normal 5 = some ⟨0, 1, 2, true⟩ ∧ s.entryAt .color 5 = some ⟨0, 1, 2, true⟩ ∧ 1 < 2) ∧
    (let s := tables ⟨0, 2, 0, false⟩ State.reset
     Selects s .normal 5 ⟨0, 2, 0, false⟩ ∧ s.normal = none ∧ Readable s (2 * 2 - (6 - 0)) ∧
       Selects s .color 5 ⟨0, 2, 0, false⟩ ∧ s.color = none ∧ Readable s (3 * 2 - (6 - 0))) ∧
    (let s := { tables ⟨0, 1, 0, false⟩ State.reset with ba := true, color := some ⟨0, 0, 0⟩ }
     Selects s .color 5 ⟨0, 1, 0, false⟩ ∧ s.alpha = none ∧ Readable s (4 * 1 - (6 - 0))) := by decide

theorem witness_BundledNormalExecutes :
    let e : Entry := ⟨0, 7, 0, true⟩
    (let s := { tables e (onBytes [0, 0x80, 0, 0]) with bn := true }
     Selects s .normal 0 e ∧ s.bn = true ∧ Readable s (8 + (e.tagLength + 2 * e.fieldLength)) ∧
       dataField s 0 6 8 6 7 * 2 ^ 0 + dataField s 0 6 8 13 7 * 2 ^ 0 = 64) ∧
    (let s := { tables e (onBytes [0, 0, 0, 0]) with bn := true, bc := true }
     Selects s .normal 0 e ∧ s.bn = true ∧ Readable s (6 + (e.tagLength + 2 * e.fieldLength)) ∧
       dataField s 0 6 6 6 7 * 2 ^ 0 + dataField s 0 6 6 13 7 * 2 ^ 0 ≤ 64) := by decide

theorem witness_BundledPartsRunAsStandalone :
    (let s := bundling true true true
     s.status = .run ∧ Readable s 8 ∧ completes (.nrm 0) (promoted s 3#2 0 6) = true ∧ s.bn = true ∧
       completes (.col 0) (promoted s 2#2 0 8) = true ∧ s.bc = true ∧
       (nextOf (exec (.nrm 0) (promoted s 3#2 0 6))).status = .run ∧
       (nextOf (exec (.col 0) (promoted s 2#2 0 8))).status = .run) ∧
    (let s := bundlingUnset true true
     s.status = .run ∧ Readable s 8 ∧ isNext (exec (.nrm 0) (promoted s 3#2 0 6)) = true ∧
       isNext (exec (.col 0) (promoted s 2#2 0 8)) = true ∧
       (nextOf (exec (.nrm 0) (promoted s 3#2 0 6))).status ≠ .run ∧
       (nextOf (exec (.col 0) (promoted s 2#2 0 8))).status ≠ .run) := by decide +kernel

theorem witness_ColorExecutes :
    (let s := tables ⟨1, 16, 0, true⟩ (onBytes [0, 0, 0, 0, 0, 0, 0, 0])
     Selects s .color 63 ⟨1, 16, 0, true⟩ ∧ Readable s (3 * 16 - (6 - 1))) ∧
    (let s := { tables ⟨0, 2, 0, false⟩ (filled (lastBits 2)) with ba := true }
     Selects s .color 63 ⟨0, 2, 0, false⟩ ∧ s.color = some ⟨4, 5, 6⟩ ∧ s.alpha = some 7 ∧
       Readable s (4 * 2 - (6 - 0))) := by decide

theorem witness_BundledColorExecutes :
    let s := { tables ⟨0, 2, 0, false⟩ (filled (lastBits 10)) with ba := true, bc := true }
    Selects s .color 63 ⟨0, 2, 0, false⟩ ∧ s.bc = true ∧ s.color = some ⟨4, 5, 6⟩ ∧ s.alpha = some 7 ∧
      Readable s (8 + (4 * 2 - (6 - 0))) := by decide

theorem witness_MeshReferenceExecutes :
    (let s := { filled (lastBits 1) with bn := true, bc := true, ba := true, useMn := true, useMc := true }
     let t : State := { consume s 1 with
       pos := some ⟨8, 9, 10⟩, normal := some ⟨1, 1, 1, 1⟩, color := some ⟨11, 12, 13⟩, alpha := some 14 }
     Readable s 1 ∧ s.slot (s.wi - 15) = ⟨some ⟨8, 9, 10⟩, some ⟨1, 1, 1, 1⟩, some ⟨11, 12, 13⟩, some 14⟩ ∧
       Emits t ⟨8, 9, 10⟩ ⟨1, 1, 1, 1⟩ ⟨11, 12, 13⟩ 14) ∧
    (let s := { filled (lastBits 1) with bn := true, bc := true, ba := true }
     let t : State := { consume s 1 with pos := some ⟨8, 9, 10⟩ }
     Readable s 1 ∧ (s.slot (s.wi - 0)).pos = some ⟨8, 9, 10⟩ ∧ (s.bn && s.useMn) = false ∧ (s.bc && s.useMc) = false ∧
       Emits t ⟨8, 9, 10⟩ ⟨0, 0, 0, 0⟩ ⟨4, 5, 6⟩ 7) := by decide

theorem witness_ReferenceResolvesSlot : completes (.mbr 15#4 true) (filled (lastBits 1)) = true := by decide

theorem witness_MeshReferenceErrorsRaise :
    (Readable (lastBits 1) 1 ∧ ((lastBits 1).slot ((lastBits 1).wi - 3)).pos = none) ∧
    (let s := { lastBits 1 with bn := true, useMn := true }
     Readable s 1 ∧ s.bn = true ∧ (if s.useMn then (s.slot (s.wi - 3)).normal else s.normal) = none) ∧
    (let s := { lastBits 1 with bc := true }
     Readable s 1 ∧ s.bc = true ∧ (if s.useMc then (s.slot (s.wi - 3)).color else s.color) = none) ∧
    (let s := { lastBits 1 with bc := true, ba := true, useMc := true }
     Readable s 1 ∧ s.bc = true ∧ s.ba = true ∧ (if s.useMc then (s.slot (s.wi - 3)).alpha else s.alpha) = none) := by decide

theorem witness_CacheKeepsLastSixteenPushes :
    (15 < 16 ∧ 15 < (List.replicate 17 (⟨1, 2, 3⟩ : Position)).length) ∧
      (0 < 16 ∧ 0 < ([⟨1, 2, 3⟩] : List Position).length) := by decide

/-- One command of every kind completes in `s`. -/
def kindsComplete (s : State) : Bool :=
  ([.nrm 0, .col 0, .vtx 0, .vtx 1, .mbr 0 true, .sst 0 true, .stb 1 true, .eos, .vnop, .skip8, .pass, .nrmSub 0 true,
    .colSub 0 true] : List Instr).all fun i => completes i s

/-- They do with no bundling and with all of it. -/
theorem every_kind_completes :
    kindsComplete (bundling false false true) = true ∧ kindsComplete (bundling true true true) = true := by
  decide +kernel

theorem witness_CommandsKeepBufferRequestAndRom :
    exec .eos State.reset = .next State.reset ∧ (inWindow 0).status = .run ∧ isNext (step (inWindow 0)) = true ∧
      (onBytes [0x18, 0, 0, 0]).status = .run ∧ isNext (step (onBytes [0x18, 0, 0, 0])) = true :=
  ⟨rfl, by decide⟩

theorem witness_OnlySetCommandsWriteConfiguration :
    (kindsComplete (bundling false false true) = true ∧ kindsComplete (bundling true true true) = true) ∧
      tableOfSelect 1 ≠ some .normal := ⟨every_kind_completes, by decide⟩

theorem witness_OnlyVerticesWriteTheCache :
    kindsComplete (bundling false false true) = true ∧ kindsComplete (bundling true true true) = true :=
  every_kind_completes

theorem witness_MeshUseFlagsTrackAttributes :
    kindsComplete (bundling false false true) = true ∧ kindsComplete (bundling true true true) = true :=
  every_kind_completes

theorem witness_EventsPerCommand :
    kindsComplete (bundling false false true) = true ∧ kindsComplete (bundling true true true) = true :=
  every_kind_completes

theorem witness_FailingStepSendsNoEvent :
    let s := { onBytes [0, 0, 0, 0] with nxt := 0x02#8 }
    s.call = none ∧ s.status = .run ∧ isNext (step s) = true ∧ (nextOf (step s)).status.isError = true := by decide

theorem witness_StreamPositionOnlyAdvances :
    kindsComplete (bundling false false true) = true ∧ kindsComplete (bundling true true true) = true :=
  every_kind_completes

theorem witness_OutsideWindowNeverRead :
    let s := { onBytes [1, 2, 3, 4, 5, 6, 7, 8] with start := 4, len := 4, p := 4 }
    s.start ≤ s.p ∧ (∀ a, s.start ≤ a → a < s.endAddr → (s.buf.write 0 9).read a = s.buf.read a) ∧
      s.buf.write 0 9 ≠ s.buf :=
  ⟨by decide, fun a h _ => Memory.read_write_other (by intro e; subst e; exact absurd h (by decide)), by decide⟩

theorem witness_StepKeepsSound :
    Sound (onBytes [0x18, 0, 0, 0]) ∧ isNext (step (onBytes [0x18, 0, 0, 0])) = true := by decide

/-- An instance that has not started a decode. -/
def idleState : State := { onBytes [] with status := .idle }

theorem witness_SoundStepHasNextState_running :
    Sound (onBytes [0x18, 0, 0, 0]) ∧ (onBytes [0x18, 0, 0, 0]).call = none := by decide

theorem witness_SoundStepHasNextState_idle : Sound idleState ∧ idleState.call = none := by decide

theorem witness_DecodeIsBoundedByInput :
    Sound (onBytes [0x18, 0, 0, 0]) ∧ (onBytes [0x18, 0, 0, 0]).call = none := by decide

theorem witness_NormalEndConsumesWholeWords :
    Sound (lastBits 0) ∧ (lastBits 0).call = none ∧ (lastBits 0).status = .run ∧ isNext (step (lastBits 0)) = true ∧
      (nextOf (step (lastBits 0))).status = .done := by decide

theorem witness_ZeroPolicyNeverUndefined :
    let s := { onBytes [0, 0, 0, 0] with params := { defaultParams with unwrittenRead := .zero } }.resetRegisters
    let s := { s with nxt := 0x02#8 }
    Sound s ∧ s.call = none ∧ s.status = .run ∧ s.params.unwrittenRead = .zero ∧ isNext (step s) = true ∧
      (nextOf (step s)).status = .error ⟨3, .reservedOpcode, .header 0x02#8, 8, 0x02#8⟩ := by decide +kernel

end Sys2Proof.Tests
end

section
/-! The binary32 outputs (00_scope.md rule R11): a word assembled from its three fields stands for sign, exponent and
fraction, the sign flip negates, and `binary32OfFixed` is exact on its whole range. -/

namespace Sys2Proof.Machine

/-! The fields of a word and its value. -/

/-- A word assembled from sign, exponent and fraction reads back as the three of them. -/
theorem fields_of_assembled {neg : Prop} [Decidable neg] {ex frac : Nat} (he : ex < 2 ^ 8) (hf : frac < 2 ^ 23) :
    let f : F32 := BitVec.ofNat 32 ((if neg then 1 else 0) * 2 ^ 31 + ex * 2 ^ 23 + frac)
    f.getLsbD 31 = decide neg ∧ (f.extractLsb' 23 8).toNat = ex ∧ (f.extractLsb' 0 23).toNat = frac := by
  obtain ⟨sign, hsign⟩ : ∃ sign : Nat, (if neg then 1 else 0) = sign := ⟨_, rfl⟩
  have hbit : sign ≤ 1 := by rw [← hsign]; split <;> decide
  have hneg : neg ↔ sign = 1 := by rw [← hsign]; split <;> simpa
  have hword : (BitVec.ofNat 32 (sign * 2 ^ 31 + ex * 2 ^ 23 + frac)).toNat = sign * 2 ^ 31 + ex * 2 ^ 23 + frac := by
    rw [BitVec.toNat_ofNat]
    omega
  rw [hsign]
  refine ⟨?_, ?_, ?_⟩
  · rw [BitVec.getLsbD, hword, Nat.testBit_eq_decide_div_mod_eq, decide_eq_decide, hneg]
    omega
  · rw [BitVec.extractLsb'_toNat, hword, Nat.shiftRight_eq_div_pow]
    omega
  · rw [BitVec.extractLsb'_toNat, hword, Nat.shiftRight_zero]
    omega

/-- A normal word (exponent not 0) stands for its sign times 1.frac times the power of two of its exponent. -/
theorem value32_of_assembled {neg : Prop} [Decidable neg] {ex frac : Nat} (hpos : 0 < ex) (he : ex < 2 ^ 8)
    (hf : frac < 2 ^ 23) :
    value32 (BitVec.ofNat 32 ((if neg then 1 else 0) * 2 ^ 31 + ex * 2 ^ 23 + frac)) =
      (if neg then -1 else 1) * (2 ^ 23 + frac) * 2 ^ ex / 2 ^ 150 := by
  obtain ⟨hsign, hex, hfrac⟩ := fields_of_assembled (neg := neg) he hf
  simp only [value32, hsign, hex, hfrac, decide_eq_true_eq, if_neg hpos.ne']

@[simp] theorem value32_zero : value32 0#32 = 0 := by
  simp [value32]

/-! The sign flip. -/

@[simp] theorem negate_sign (f : F32) : (negate f).getLsbD 31 = !f.getLsbD 31 := by
  simp [negate]

@[simp] theorem negate_exponent (f : F32) : (negate f).extractLsb' 23 8 = f.extractLsb' 23 8 := by
  rw [negate, BitVec.extractLsb'_xor, show (0x80000000#32).extractLsb' 23 8 = 0#8 by decide, BitVec.xor_zero]

@[simp] theorem negate_fraction (f : F32) : (negate f).extractLsb' 0 23 = f.extractLsb' 0 23 := by
  rw [negate, BitVec.extractLsb'_xor, show (0x80000000#32).extractLsb' 0 23 = 0#23 by decide, BitVec.xor_zero]

@[simp] theorem value32_negate (f : F32) : value32 (negate f) = -value32 f := by
  simp only [value32, negate_sign, negate_exponent, negate_fraction]
  cases f.getLsbD 31 with
  | false => split <;> simp only [Bool.not_false, if_true, if_false, Bool.false_eq_true] <;> ring
  | true => split <;> simp only [Bool.not_true, if_true, if_false, Bool.false_eq_true] <;> ring

/-- Negation flips a bit, so no word is its own negation, a zero neither (decision D19). -/
theorem negate_ne_self (f : F32) : negate f ≠ f := by
  intro h
  have hsign : f.getLsbD 31 = !f.getLsbD 31 := by rw [← negate_sign, h]
  exact absurd hsign.symm (Bool.not_ne_self _)

/-! The fixed-point conversion. -/

/-- Shifting the leading bit of `m` up to bit 23 leaves a significand between 1 and 2, in units of 2^-23. -/
theorem significand_bounds {m : Nat} (h0 : m ≠ 0) (hm : m < 2 ^ 24) :
    m.log2 ≤ 23 ∧ 2 ^ 23 ≤ m * 2 ^ (23 - m.log2) ∧ m * 2 ^ (23 - m.log2) < 2 ^ 24 := by
  have htop : m.log2 ≤ 23 := Nat.le_of_lt_succ ((Nat.log2_lt h0).2 hm)
  have hlow : 2 ^ m.log2 * 2 ^ (23 - m.log2) = 2 ^ 23 := by rw [← pow_add, Nat.add_sub_cancel' htop]
  have hhigh : 2 ^ (m.log2 + 1) * 2 ^ (23 - m.log2) = 2 ^ 24 := by rw [← pow_add]; congr 1; omega
  refine ⟨htop, ?_, ?_⟩
  · rw [← hlow]
    exact Nat.mul_le_mul_right _ (Nat.log2_self_le h0)
  · rw [← hhigh]
    exact Nat.mul_lt_mul_of_pos_right Nat.lt_log2_self (by positivity)

/-- The exponent undoes the significand's shift: together they scale by 2^-frac. -/
theorem significand_scale {top frac : Nat} (htop : top ≤ 23) (hfrac : frac ≤ 126) :
    (2 : ℚ) ^ (23 - top) * 2 ^ (127 + top - frac) / 2 ^ 150 = 1 / 2 ^ frac := by
  rw [div_eq_div_iff (by positivity) (by positivity), one_mul, ← pow_add, ← pow_add]
  congr 1
  omega

theorem sign_mul_natAbs (k : Int) : (if k < 0 then -1 else 1) * (k.natAbs : ℚ) = k := by
  rw [Nat.cast_natAbs]
  split
  case isTrue hneg => simp [abs_of_neg hneg]
  case isFalse hneg => simp [abs_of_nonneg (not_lt.1 hneg)]

/-- The conversion is exact wherever the significand fits into 24 bits and the exponent stays normal. -/
theorem value32_binary32OfFixed {k : Int} {frac : Nat} (hk : k.natAbs < 2 ^ 24) (hfrac : frac ≤ 126) :
    value32 (binary32OfFixed k frac) = (k : ℚ) / 2 ^ frac := by
  by_cases h0 : k = 0
  · simp [binary32OfFixed, h0]
  obtain ⟨htop, hlow, hhigh⟩ := significand_bounds (Int.natAbs_ne_zero.2 h0) hk
  calc value32 (binary32OfFixed k frac)
    _ = (if k < 0 then -1 else 1) * (k.natAbs * 2 ^ (23 - k.natAbs.log2)) *
          2 ^ (127 + k.natAbs.log2 - frac) / 2 ^ 150 := by
        rw [binary32OfFixed, if_neg h0, value32_of_assembled (by omega) (by omega) (by omega), Nat.cast_sub hlow]
        simp only [Nat.cast_mul, Nat.cast_pow, Nat.cast_ofNat, add_sub_cancel]
    _ = (if k < 0 then -1 else 1) * k.natAbs *
          (2 ^ (23 - k.natAbs.log2) * 2 ^ (127 + k.natAbs.log2 - frac) / 2 ^ 150) := by ring
    _ = k / 2 ^ frac := by rw [sign_mul_natAbs, significand_scale htop hfrac, mul_one_div]

/-- A 16-bit integer has at most 16 significant bits. -/
theorem word16_natAbs_le (v : Word16) : v.toInt.natAbs ≤ 2 ^ 15 := by
  have hlow := BitVec.le_toInt v
  have hhigh := BitVec.toInt_lt (x := v)
  omega

/-- 10_state.md rule R34. -/
theorem value32_romValue (k : Word16) : value32 (romValue k) = (k.toInt : ℚ) / 16384 := by
  rw [romValue, value32_binary32OfFixed ((word16_natAbs_le k).trans_lt (by decide)) (by decide)]
  norm_num

/-- Settles O60: the conversion of a ROM integer is exact, and the sign flip negates and changes every word. -/
theorem normalOutputIsExact : Obligations.NormalOutputIsExact := by
  intro k
  exact ⟨value32_romValue k, by rw [value32_negate, value32_romValue], negate_ne_self _⟩

end Sys2Proof.Machine
end

section
/-! What a command writes, said once: every computation of a command is a sequence of the moves below, whether it completes
or stops; only STB and SST write more, at their end. The frames and the invariants over all commands rest on this. -/

namespace Sys2Proof.Machine

/-! The moves. -/

/-- One write of a command outside the configuration: the extractor (20_memory.md rules R53, R55), the headers, the
accumulators, REP, the mesh-use flags, the cache and the sink. A normal that is written is checked or comes from the
cache. -/
inductive Move : State → State → Prop where
  | load (s : State) (w : Window) (h : s.p + 4 ≤ s.endAddr) : Move s (s.setBfx (s.p + 4) w 32)
  | take (s : State) (n : Nat) (h : n ≤ s.c ∨ s.c = 32) : Move s (s.setBfx s.p (s.w <<< n) (s.c - n))
  | setCur (s : State) (h : Byte) : Move s (s.setCur h)
  | setNxt (s : State) (h : Byte) : Move s (s.setNxt h)
  | setRep (s : State) (v : BitVec 2) : Move s (s.setRep v)
  | setPos (s : State) (v : Position) : Move s (s.setPos v)
  | setColor (s : State) (v : Color) : Move s (s.setColor v)
  | setAlpha (s : State) (v : Word16) : Move s (s.setAlpha v)
  | setNormal (s : State) (n : Normal) (h : inDomain n.u n.v = true) : Move s (s.setNormal n)
  | reuseNormal (s : State) (j : BitVec 4) (n : Normal) (h : (s.slot j).normal = some n) : Move s (s.setNormal n)
  | clearUseMn (s : State) : Move s s.clearUseMn
  | clearUseMc (s : State) : Move s s.clearUseMc
  | clearMeshUse (s : State) : Move s s.clearMeshUse
  | setMeshUse (s : State) : Move s s.setMeshUse
  | pushPosition (s : State) : Move s s.pushPosition
  | pushNormal (s : State) : Move s (s.setSlot s.wi { s.slot s.wi with normal := s.normal })
  | pushColor (s : State) : Move s (s.setSlot s.wi { s.slot s.wi with color := s.color, alpha := s.alpha })
  | emit (s : State) (e : Event) : Move s (s.emit e)

/-- A sequence of moves. -/
abbrev Moves : State → State → Prop := Relation.ReflTransGen Move

/-- What every move keeps, a sequence of moves keeps. -/
theorem Moves.keep {J : State → Prop} (hJ : ∀ {s t}, Move s t → J s → J t) {s t : State} (h : Moves s t) (hs : J s) :
    J t := by
  induction h with
  | refl => exact hs
  | tail _ hm ih => exact hJ hm ih

/-- From `s` the computation `m` only moves, and where it stops in an UNDEFINED_READ some part is indeed undefined. -/
structure Op.Confined {α : Type} (m : Op α) (s : State) : Prop where
  ok : ∀ {a t}, m s = .ok a t → Moves s t
  stops : ∀ {e t}, m s = .error e t → Moves s t ∧ ∀ i, e = .raise .undefinedRead i → ¬ AllDefined t

namespace Op.Confined

variable {α β : Type} {s : State}

theorem bind {m : Op α} {f : α → Op β} (hm : m.Confined s) (hf : ∀ a t, m s = .ok a t → (f a).Confined t) :
    (m >>= f).Confined s where
  ok h := by
    obtain ⟨a, u, hu, ht⟩ := Op.bind_ok.1 h
    exact (hm.ok hu).trans ((hf a u hu).ok ht)
  stops h := by
    rcases Op.bind_error.1 h with he | ⟨a, u, hu, he⟩
    · exact hm.stops he
    · obtain ⟨hmoves, hlack⟩ := (hf a u hu).stops he
      exact ⟨(hm.ok hu).trans hmoves, hlack⟩

theorem pure (a : α) : (Pure.pure a : Op α).Confined s where
  ok h := by cases h; exact .refl
  stops h := by cases h

theorem get : (MonadState.get : Op State).Confined s where
  ok h := by cases h; exact .refl
  stops h := by cases h

/-- An update that is one move, before the rest of a computation. -/
theorem update_bind {f : State → State} {g : Unit → Op β} (hf : Move s (f s)) (hg : (g ()).Confined (f s)) :
    (update f >>= g).Confined s :=
  bind ⟨fun h => by cases h; exact .single hf, fun h => by cases h⟩ fun _ t h => by cases h; exact hg

theorem update {f : State → State} (hf : Move s (f s)) : (update f).Confined s where
  ok h := by cases h; exact .single hf
  stops h := by cases h

theorem get_bind {g : State → Op β} (hg : (g s).Confined s) : ((MonadState.get : Op State) >>= g).Confined s :=
  bind get fun _ t h => by cases h; exact hg

theorem raise {r : Reason} {i : Info} (hr : r ≠ .undefinedRead) : (raise r i : Op α).Confined s where
  ok h := by cases h
  stops h := by cases h; exact ⟨.refl, fun _ he => by cases he; exact absurd rfl hr⟩

theorem need {v : Option α} (hv : v = none → ¬ AllDefined s) : (need v).Confined s where
  ok h := by obtain ⟨-, rfl⟩ := need_ok.1 h; exact .refl
  stops h := by obtain ⟨hn, -, rfl⟩ := need_error.1 h; exact ⟨.refl, fun _ _ => hv hn⟩

theorem need_bind {v : Option α} {g : α → Op β} (hv : v = none → ¬ AllDefined s)
    (hg : ∀ a, v = some a → (g a).Confined s) : (Machine.need v >>= g).Confined s :=
  bind (need hv) fun a t h => by obtain ⟨ha, rfl⟩ := need_ok.1 h; exact hg a ha

end Op.Confined

/-! The extractor and the operands. -/

/-- A refill that completes is one move, onto a full window. -/
theorem refill_move {s t : State} {u : Unit} (h : refill s = .ok u t) : Move s t ∧ t.c = 32 := by
  rcases refill_cases s with ⟨-, hr⟩ | ⟨he, hr⟩ | ⟨-, a, hr⟩ <;> rw [hr] at h <;> cases h
  exact ⟨.load s _ he, rfl⟩

theorem refill_confined (s : State) : refill.Confined s where
  ok h := .single (refill_move h).1
  stops h := by
    obtain ⟨rfl, rfl | ⟨a, rfl⟩⟩ := refill_stop h
    · exact ⟨.refl, fun _ he => by cases he⟩
    · exact ⟨.refl, fun _ he => by cases he⟩

theorem takeBits_confined {n : Nat} {s : State} (h : n ≤ s.c ∨ s.c = 32) : (takeBits n).Confined s where
  ok ht := by cases ht; exact .single (.take s n h)
  stops ht := by cases ht

theorem getBits_confined (n : Nat) (s : State) : (getBits n).Confined s := by
  unfold getBits
  split
  · exact .pure 0
  refine .get_bind ?_
  have hrest : ∀ u : State, Op.Confined (do
      let s ← get
      if n ≤ s.c then takeBits n
      else
        let hi := (s.w >>> (32 - s.c)).toNat
        refill
        let lo ← takeBits (n - s.c)
        return hi * 2 ^ (n - s.c) + lo) u := by
    intro u
    refine .get_bind ?_
    split
    · next hn => exact takeBits_confined (.inl hn)
    · refine .bind (refill_confined u) fun _ t ht => ?_
      exact .bind (takeBits_confined (.inr (refill_move ht).2)) fun _ _ _ => .pure _
  split
  · exact .bind (refill_confined s) fun _ t _ => hrest t
  · exact hrest s

theorem fetchNext_confined (n : Nat) (s : State) : (fetchNext n).Confined s :=
  .bind (getBits_confined n s) fun _ t _ => .update (.setNxt t _)

theorem unpackFrom_confined (h6 : BitVec 6) (avail : Nat) (ws : List Nat) (s : State) :
    (unpackFrom h6 avail ws).Confined s := by
  induction ws generalizing avail s with
  | nil => exact .pure _
  | cons w ws ih =>
    rw [unpackFrom]
    split
    · exact .bind (ih _ s) fun _ _ _ => .pure _
    · exact .bind (getBits_confined _ s) fun _ t _ => .bind (ih _ t) fun _ _ _ => .pure _

theorem unpack_confined (h6 : BitVec 6) (t : Nat) (ws : List Nat) (s : State) : (unpack h6 t ws).Confined s :=
  unpackFrom_confined h6 _ ws s

theorem lookup_confined (k : TableId) (h6 : BitVec 6) (s : State) : (lookup k h6).Confined s where
  ok h := by obtain ⟨-, -, rfl⟩ := lookup_ok.1 h; exact .refl
  stops h := by
    rw [lookup_eq] at h
    split at h
    · cases h; exact ⟨.refl, fun _ he => by cases he⟩
    · split at h <;> cases h
      exact ⟨.refl, fun _ he => by cases he⟩

/-! The undefined parts. -/

theorem not_allDefined_of_pos {s : State} (h : s.pos = none) : ¬ AllDefined s := by
  rintro ⟨hpos, -⟩
  simp [h] at hpos

theorem not_allDefined_of_color {s : State} (h : s.color = none) : ¬ AllDefined s := by
  rintro ⟨-, hcolor, -⟩
  simp [h] at hcolor

theorem not_allDefined_of_alpha {s : State} (h : s.alpha = none) : ¬ AllDefined s := by
  rintro ⟨-, -, halpha, -⟩
  simp [h] at halpha

theorem not_allDefined_of_normal {s : State} (h : s.normal = none) : ¬ AllDefined s := by
  rintro ⟨-, -, -, hnormal, -⟩
  simp [h] at hnormal

theorem not_allDefined_of_slot {s : State} {j : BitVec 4} (h : (s.slot j).defined = false) : ¬ AllDefined s := by
  rintro ⟨-, -, -, -, hslots⟩
  have hj : (s.slot j).defined = true := hslots ⟨j.toNat, j.isLt⟩
  rw [h] at hj
  cases hj

theorem not_allDefined_of_slot_pos {s : State} {j : BitVec 4} (h : (s.slot j).pos = none) : ¬ AllDefined s :=
  not_allDefined_of_slot (j := j) (by simp [Slot.defined, h])

theorem not_allDefined_of_slot_normal {s : State} {j : BitVec 4} (h : (s.slot j).normal = none) : ¬ AllDefined s :=
  not_allDefined_of_slot (j := j) (by simp [Slot.defined, h])

theorem not_allDefined_of_slot_color {s : State} {j : BitVec 4} (h : (s.slot j).color = none) : ¬ AllDefined s :=
  not_allDefined_of_slot (j := j) (by simp [Slot.defined, h])

theorem not_allDefined_of_slot_alpha {s : State} {j : BitVec 4} (h : (s.slot j).alpha = none) : ¬ AllDefined s :=
  not_allDefined_of_slot (j := j) (by simp [Slot.defined, h])

/-! The sink. -/

theorem colorOut_confined (s : State) : colorOut.Confined s := by
  refine .get_bind (.need_bind not_allDefined_of_color fun c _ => ?_)
  split
  · exact .need_bind not_allDefined_of_alpha fun a _ => .pure _
  · exact .pure _

theorem vertexNormal_confined (s : State) : vertexNormal.Confined s := by
  refine .get_bind ?_
  split
  · exact .need_bind not_allDefined_of_normal fun n _ => .pure _
  · exact .pure _

theorem vertexColor_confined (s : State) : vertexColor.Confined s := by
  refine .get_bind ?_
  split
  · exact .bind (colorOut_confined s) fun c t _ => .pure _
  · exact .pure _

theorem emitVertex_confined (s : State) : emitVertex.Confined s := by
  refine .get_bind (.need_bind not_allDefined_of_pos fun p _ => ?_)
  refine .bind (vertexNormal_confined s) fun n t _ => .bind (vertexColor_confined t) fun c u _ => ?_
  exact .update_bind (.emit u _) (.update (.setMeshUse _))

/-! Colors. -/

theorem accumulateColor_confined (e : Entry) (fs : List Nat) (s : State) : (accumulateColor e fs).Confined s := by
  refine .get_bind ?_
  dsimp only
  split
  · refine .update_bind (.setColor s _) ?_
    split
    · exact .update (.setAlpha _ _)
    · exact .pure _
  · refine .need_bind not_allDefined_of_color fun c _ => .update_bind (.setColor s _) ?_
    split
    · exact .need_bind (fun ha => not_allDefined_of_alpha ha) fun a _ => .update (.setAlpha _ _)
    · exact .pure _

theorem pushColor_confined (mbp : Bool) (s : State) : (pushColor mbp).Confined s := by
  cases mbp with
  | false => exact .pure ()
  | true => exact .update (.pushColor s)

theorem setColorCommand_confined (h6 : BitVec 6) (mbp : Bool) (s : State) : (setColorCommand h6 mbp).Confined s := by
  refine .update_bind (.clearUseMc s) (.bind (lookup_confined _ _ _) fun e t _ => .get_bind ?_)
  refine .bind (unpack_confined _ _ _ _) fun fs t _ => .bind (accumulateColor_confined _ _ _) fun _ t _ => ?_
  refine .bind (pushColor_confined _ _) fun _ t _ => .get_bind ?_
  split
  · exact .bind (colorOut_confined _) fun v t _ => .update (.emit t _)
  · exact .pure _

theorem bundledColor_confined (h6 : BitVec 6) (mbp : Bool) (s : State) : (bundledColor h6 mbp).Confined s :=
  .update_bind (.setCur s _) (.bind (fetchNext_confined _ _) fun _ t _ => setColorCommand_confined h6 mbp t)

/-! Normals. -/

theorem correctNormal_confined (n : Normal) (s : State) : (correctNormal n).Confined s := by
  unfold correctNormal
  split
  · exact .pure _
  · split
    · exact .pure _
    · exact .raise (by decide)

theorem absoluteNormal_confined (h6 : BitVec 6) (e : Entry) (s : State) : (absoluteNormal h6 e).Confined s :=
  .bind (unpack_confined _ _ _ _) fun _ _ _ => .pure _

theorem relativeNormal_confined (h6 : BitVec 6) (e : Entry) (s : State) : (relativeNormal h6 e).Confined s := by
  refine .bind (unpack_confined _ _ _ _) fun fs t _ => .get_bind ?_
  exact .need_bind not_allDefined_of_normal fun n _ => correctNormal_confined _ t

theorem pushNormal_confined (mbp : Bool) (s : State) : (pushNormal mbp).Confined s := by
  cases mbp with
  | false => exact .pure ()
  | true => exact .update (.pushNormal s)

theorem setNormalCommand_confined (h6 : BitVec 6) (mbp : Bool) (s : State) : (setNormalCommand h6 mbp).Confined s := by
  refine .update_bind (.clearUseMn s) (.bind (lookup_confined _ _ _) fun e t _ => ?_)
  have hrest : ∀ (n : Normal) (u : State), Op.Confined (do
      if !inDomain n.u n.v then raise .outOfDomain (.uv n.u n.v)
      update (·.setNormal n)
      pushNormal mbp
      let s ← get
      if !s.bn then emit (.globalNormal (convert s.params n))) u := by
    intro n u
    split
    · exact .raise (by decide)
    · next hd =>
      refine .update_bind (.setNormal u n (by simpa using hd)) ?_
      refine .bind (pushNormal_confined _ _) fun _ v _ => .get_bind ?_
      split
      · exact .update (.emit v _)
      · exact .pure _
  split
  · exact .bind (absoluteNormal_confined _ _ _) fun n u _ => hrest n u
  · exact .bind (relativeNormal_confined _ _ _) fun n u _ => hrest n u

theorem bundledNormal_confined (h6 : BitVec 6) (mbp : Bool) (s : State) : (bundledNormal h6 mbp).Confined s :=
  .update_bind (.setCur s _) (.get_bind
    (.bind (fetchNext_confined _ _) fun _ t _ => setNormalCommand_confined h6 mbp t))

/-! Vertices. -/

theorem accumulatePosition_confined (e : Entry) (fs : List Nat) (s : State) : (accumulatePosition e fs).Confined s := by
  unfold accumulatePosition
  dsimp only
  split
  · exact .update (.setPos s _)
  · exact .get_bind (.need_bind not_allDefined_of_pos fun p _ => .update (.setPos s _))

theorem replaceAndPush_confined (h6 : BitVec 6) (e : Entry) (s : State) : (replaceAndPush h6 e).Confined s :=
  .bind (getBits_confined _ _) fun _ _ _ => .pure _

theorem vertexPosition_confined (h6 : BitVec 6) (s : State) : (vertexPosition h6).Confined s := by
  refine .update_bind (.clearMeshUse s) (.bind (lookup_confined _ _ _) fun e t _ => ?_)
  split
  · exact .raise (by decide)
  refine .bind (replaceAndPush_confined _ _ _) fun rm t _ => .update_bind (.setRep t _) ?_
  refine .bind (unpack_confined _ _ _ _) fun fs t _ => .bind (accumulatePosition_confined _ _ _) fun _ t _ => ?_
  split
  · exact .update_bind (.pushPosition t) (.pure _)
  · exact .pure _

theorem vertexStep_confined (h6 : BitVec 6) (s : State) : (vertexStep h6).Confined s := by
  refine .get_bind ?_
  split
  all_goals
    refine .bind (fetchNext_confined _ _) fun _ t _ => .bind (vertexPosition_confined _ _) fun mbp t _ => ?_
  · exact emitVertex_confined t
  · exact .get_bind (.bind (bundledNormal_confined _ _ _) fun _ t _ => emitVertex_confined t)
  · exact .get_bind (.bind (bundledColor_confined _ _ _) fun _ t _ => emitVertex_confined t)
  · refine .get_bind (.bind (bundledNormal_confined _ _ _) fun _ t _ => ?_)
    exact .get_bind (.bind (bundledColor_confined _ _ _) fun _ t _ => emitVertex_confined t)

/-! Mesh buffer references. -/

theorem reuseNormal_confined (s : State) (j : BitVec 4) : (reuseNormal (s.slot j)).Confined s := by
  refine .get_bind ?_
  split
  · exact .need_bind not_allDefined_of_slot_normal fun n hn => .update (.reuseNormal s j n hn)
  · exact .pure _

theorem reuseColor_confined (s : State) (j : BitVec 4) : (reuseColor (s.slot j)).Confined s := by
  refine .get_bind ?_
  split
  · refine .need_bind not_allDefined_of_slot_color fun c _ => .update_bind (.setColor s c) ?_
    split
    · exact .need_bind (fun ha => not_allDefined_of_slot_alpha (s := s.setColor c) ha) fun a _ => .update (.setAlpha _ a)
    · exact .pure _
  · exact .pure _

/-- The reuse of a normal writes N at most. -/
theorem reuseNormal_eq {slot : Slot} {s t : State} {x : Unit} (h : reuseNormal slot s = .ok x t) :
    t = s ∨ ∃ n, t = s.setNormal n := by
  rcases reuseNormal_ok.1 h with ⟨-, n, -, rfl⟩ | ⟨-, rfl⟩
  · exact .inr ⟨n, rfl⟩
  · exact .inl rfl

theorem reuseNormal_slot {slot : Slot} {s t : State} {x : Unit} (h : reuseNormal slot s = .ok x t) (j : BitVec 4) :
    t.slot j = s.slot j := by
  rcases reuseNormal_eq h with rfl | ⟨n, rfl⟩ <;> rfl

theorem meshReference_confined (k : BitVec 4) (r1 : Bool) (s : State) : (meshReference k r1).Confined s := by
  refine .bind (getBits_confined _ _) fun r0 t _ => .update_bind (.setRep t _) ?_
  generalize State.setRep t _ = t
  refine .get_bind (.need_bind not_allDefined_of_slot_pos fun p _ => .update_bind (.setPos t p) ?_)
  rw [← State.setPos_slot t p]
  refine .bind (reuseNormal_confined (t.setPos p) _) fun _ u hu => ?_
  rw [← reuseNormal_slot hu]
  exact .bind (reuseColor_confined u _) fun _ v _ => .update (.clearMeshUse v)

/-! Fetch. -/

theorem fetch_confined (s : State) : fetch.Confined s := by
  refine .update_bind (.setCur s _) (.get_bind ?_)
  dsimp only
  split
  · exact .bind (fetchNext_confined _ _) fun _ _ _ => .pure _
  · exact .pure _

/-! Commands. -/

theorem highestSetBit_le (adr : BitVec 7) : highestSetBit adr ≤ 6 := by
  unfold highestSetBit
  split_ifs <;> omega

/-- The entry that STB stores is legal, whatever its body (10_state.md rule R23; 40_set_table.md rule R105). -/
theorem entryOfBody_legal (k : TableId) (adr : BitVec 7) (ii : BitVec 15) :
    (entryOfBody k (highestSetBit adr) ii).legal k = true := by
  have htag := highestSetBit_le adr
  cases k with
  | normal =>
    simp [Entry.legal, entryOfBody, storedLength]
    omega
  | position | color =>
    simp [Entry.legal, entryOfBody, storedLength]
    split_ifs <;> omega

/-- STB reads its body, and then fills its range with one legal entry. -/
theorem setTableCommand_ok {sel : BitVec 2} {a6 : Bool} {s t : State} {x : Unit}
    (h : setTableCommand sel a6 s = .ok x t) :
    ∃ k adr e u, tableOfSelect sel = some k ∧ Entry.legal k e = true ∧ Moves s u ∧
      t = u.setTable k (fillSlots (u.table k) adr e) := by
  cases hk : tableOfSelect sel with
  | none => simp only [setTableCommand, hk] at h; cases h
  | some k =>
    simp only [setTableCommand, hk] at h
    obtain ⟨ii, u, hu, h⟩ := Op.bind_ok.1 h
    cases h
    exact ⟨k, _, _, u, rfl, entryOfBody_legal k _ _, (getBits_confined 15 s).ok hu, rfl⟩

theorem setTableCommand_error {sel : BitVec 2} {a6 : Bool} {s t : State} {e : Stop}
    (h : setTableCommand sel a6 s = .error e t) : Moves s t ∧ ∀ i, e = .raise .undefinedRead i → ¬ AllDefined t := by
  cases hk : tableOfSelect sel with
  | none =>
    simp only [setTableCommand, hk] at h
    exact (Op.Confined.raise (by decide)).stops h
  | some k =>
    simp only [setTableCommand, hk] at h
    rcases Op.bind_error.1 h with h | ⟨ii, u, hu, h⟩
    · exact (getBits_confined 15 s).stops h
    · cases h

/-- How a command that has moved to `u` ends. -/
inductive CommandEnd (i : Instr) (u : State) : State → Prop where
  | completes : CommandEnd i u u
  | setsTable (sel : BitVec 2) (a6 : Bool) (k : TableId) (adr : BitVec 7) (e : Entry) (hi : i = .stb sel a6)
      (hk : tableOfSelect sel = some k) (he : Entry.legal k e = true) :
      CommandEnd i u (u.setTable k (fillSlots (u.table k) adr e))
  | setsBundling (x : BitVec 2) (bn bc ba : Bool) (hi : i = .sst x bn) :
      CommandEnd i u ((u.setBundling bn bc ba).emit (.vertexFormat bn bc ba))
  | fails (r : Reason) (info : Info) (hr : r = .undefinedRead → ¬ AllDefined u) : CommandEnd i u (enterError r info u)

theorem Op.Confined.ends {m : Op Unit} {s t : State} {i : Instr} (hm : m.Confined s) (h : runOp m s = .next t) :
    ∃ u, Moves s u ∧ CommandEnd i u t := by
  rcases runOp_next.1 h with hok | ⟨r, info, u, herr, rfl⟩
  · exact ⟨t, hm.ok hok, .completes⟩
  · obtain ⟨hmoves, hlack⟩ := hm.stops herr
    exact ⟨u, hmoves, .fails r info fun hr => hlack info (by rw [hr])⟩

theorem execStb_ends {sel : BitVec 2} {a6 : Bool} {s t : State} (h : execStb sel a6 s = .next t) :
    ∃ u, Moves s u ∧ CommandEnd (.stb sel a6) u t := by
  rcases runOp_next.1 h with hok | ⟨r, info, u, herr, rfl⟩
  · obtain ⟨k, adr, e, u, hk, he, hmoves, rfl⟩ := setTableCommand_ok hok
    exact ⟨u, hmoves, .setsTable sel a6 k adr e rfl hk he⟩
  · obtain ⟨hmoves, hlack⟩ := setTableCommand_error herr
    exact ⟨u, hmoves, .fails r info fun hr => hlack info (by rw [hr])⟩

theorem execSst_ends {x : BitVec 2} {bn : Bool} {s t : State} (h : execSst x bn s = .next t) :
    ∃ u, Moves s u ∧ CommandEnd (.sst x bn) u t := by
  rcases runOp_next.1 h with hok | ⟨r, info, u, herr, rfl⟩
  · obtain ⟨ii, u, hu, hrest⟩ := Op.bind_ok.1 hok
    cases hrest
    exact ⟨u, (getBits_confined 3 s).ok hu, .setsBundling x bn _ _ rfl⟩
  · rcases Op.bind_error.1 herr with herr | ⟨ii, v, -, hrest⟩
    · obtain ⟨hmoves, hlack⟩ := (getBits_confined 3 s).stops herr
      exact ⟨u, hmoves, .fails r info fun hr => hlack info (by rw [hr])⟩
    · cases hrest

/-- All that a command can do: it moves, and then it completes, sets a table, sets the bundling flags, or fails. -/
theorem exec_ends {i : Instr} {s t : State} (h : exec i s = .next t) : ∃ u, Moves s u ∧ CommandEnd i u t := by
  cases i with
  | nrm h6 => exact (setNormalCommand_confined h6 false s).ends h
  | col h6 => exact (setColorCommand_confined h6 false s).ends h
  | vtx h6 => exact (vertexStep_confined h6 s).ends h
  | mbr k r1 => exact (Op.Confined.bind (meshReference_confined k r1 s) fun _ u _ => emitVertex_confined u).ends h
  | sst x bn => exact execSst_ends h
  | stb sel a6 => exact execStb_ends h
  | eos => exact (Op.Confined.pure ()).ends h
  | vnop =>
    exact (Op.Confined.bind (getBits_confined 5 s) fun n u _ => .bind (getBits_confined n u) fun _ _ _ => .pure ()).ends h
  | skip8 => exact (Op.Confined.bind (getBits_confined 8 s) fun _ _ _ => .pure ()).ends h
  | pass =>
    exact (Op.Confined.bind (getBits_confined 24 s) fun _ u _ => .bind (getBits_confined 32 u) fun _ _ _ => .pure ()).ends h
  | nrmSub h6 mbp => exact (bundledNormal_confined h6 mbp s).ends h
  | colSub h6 mbp => exact (bundledColor_confined h6 mbp s).ends h
  | reserved02 | reserved03 | reserved04 | reserved05 | reserved06 | reserved09 | reserved0A | reserved0B | reserved0C
  | reserved0D | reserved0E | reserved0F | stbReservedSelect a6 => exact (Op.Confined.raise (by decide)).ends h

end Sys2Proof.Machine
end

section
/-! What every move keeps: the request, the configuration, STATUS, the direction of the stream, and the invariant. -/

namespace Sys2Proof.Machine

/-! Frames. -/

/-- The buffer, the request, the parameters and the host's side are the same (10_state.md rule R36; log entries 6 and
30). -/
structure SameRequest (s t : State) : Prop where
  buf : t.buf = s.buf
  size : t.size = s.size
  start : t.start = s.start
  len : t.len = s.len
  vmaj : t.vmaj = s.vmaj
  vmin : t.vmin = s.vmin
  vminmin : t.vminmin = s.vminmin
  params : t.params = s.params
  call : t.call = s.call
  hostBuf : t.hostBuf = s.hostBuf
  hostSize : t.hostSize = s.hostSize

/-- The decode tables and the bundling flags are the same. -/
structure SameConfiguration (s t : State) : Prop where
  table : ∀ k, t.table k = s.table k
  bn : t.bn = s.bn
  bc : t.bc = s.bc
  ba : t.ba = s.ba

theorem SameRequest.trans {s t u : State} (h : SameRequest s t) (h' : SameRequest t u) : SameRequest s u where
  buf := h'.buf.trans h.buf
  size := h'.size.trans h.size
  start := h'.start.trans h.start
  len := h'.len.trans h.len
  vmaj := h'.vmaj.trans h.vmaj
  vmin := h'.vmin.trans h.vmin
  vminmin := h'.vminmin.trans h.vminmin
  params := h'.params.trans h.params
  call := h'.call.trans h.call
  hostBuf := h'.hostBuf.trans h.hostBuf
  hostSize := h'.hostSize.trans h.hostSize

theorem SameConfiguration.trans {s t u : State} (h : SameConfiguration s t) (h' : SameConfiguration t u) :
    SameConfiguration s u where
  table k := (h'.table k).trans (h.table k)
  bn := h'.bn.trans h.bn
  bc := h'.bc.trans h.bc
  ba := h'.ba.trans h.ba

theorem Move.sameRequest {s t : State} (h : Move s t) : SameRequest s t := by
  cases h <;> exact ⟨rfl, rfl, rfl, rfl, rfl, rfl, rfl, rfl, rfl, rfl, rfl⟩

theorem Move.sameConfiguration {s t : State} (h : Move s t) : SameConfiguration s t := by
  cases h <;> exact ⟨fun _ => rfl, rfl, rfl, rfl⟩

theorem Move.status {s t : State} (h : Move s t) : t.status = s.status := by
  cases h <;> rfl

theorem Move.bitpos_le {s t : State} (h : Move s t) : s.bitpos ≤ t.bitpos := by
  cases h with
  | load | take => simp only [State.bitpos, State.setBfx_p, State.setBfx_start, State.setBfx_c]; omega
  | _ => exact Int.le_refl _

theorem Moves.sameRequest {s t : State} (h : Moves s t) : SameRequest s t :=
  h.keep (fun hm hs => hs.trans hm.sameRequest) ⟨rfl, rfl, rfl, rfl, rfl, rfl, rfl, rfl, rfl, rfl, rfl⟩

theorem Moves.sameConfiguration {s t : State} (h : Moves s t) : SameConfiguration s t :=
  h.keep (fun hm hs => hs.trans hm.sameConfiguration) ⟨fun _ => rfl, rfl, rfl, rfl⟩

theorem Moves.status {s t : State} (h : Moves s t) : t.status = s.status :=
  h.keep (J := fun u => u.status = s.status) (fun hm hs => hm.status.trans hs) rfl

theorem Moves.bitpos_le {s t : State} (h : Moves s t) : s.bitpos ≤ t.bitpos :=
  h.keep (J := fun u => s.bitpos ≤ u.bitpos) (fun hm hs => hs.trans hm.bitpos_le) (Int.le_refl _)

/-! The invariant. -/

/-- Taking `n` bits leaves zeros behind the unread ones: what is left of the window, or nothing of it. -/
theorem zeros_shiftLeft {w : Window} {c n : Nat} (h : w <<< c = 0#32) (hn : n ≤ c ∨ c = 32) :
    (w <<< n) <<< (c - n) = 0#32 := by
  rw [← BitVec.shiftLeft_add]
  by_cases hle : n ≤ c
  · rw [Nat.add_sub_cancel' hle]; exact h
  · exact BitVec.shiftLeft_eq_zero (by omega)

theorem Move.bfxSound {s t : State} (h : Move s t) (hs : BfxSound s) : BfxSound t := by
  obtain ⟨hlow, hhigh, hend, hword, hc, hread, hzeros⟩ := hs
  cases h with
  | load w he =>
    refine ⟨?_, he, hend, ?_, Nat.le_refl 32, ?_, ?_⟩
    · simp; omega
    · simp; omega
    · simp; omega
    · rw [State.setBfx_w, State.setBfx_c]
      exact BitVec.shiftLeft_eq_zero (Nat.le_refl 32)
  | take n hn =>
    refine ⟨hlow, hhigh, hend, hword, ?_, ?_, ?_⟩
    · simp; omega
    · simp; omega
    · exact zeros_shiftLeft hzeros hn
  | _ => exact ⟨hlow, hhigh, hend, hword, hc, hread, hzeros⟩

/-- A statement about every slot, by the index of the cache or by the write index. -/
theorem forall_slot {s : State} (P : Slot → Prop) : (∀ j : Fin 16, P (s.vc[j])) ↔ ∀ j : BitVec 4, P (s.slot j) :=
  ⟨fun h j => h ⟨j.toNat, j.isLt⟩, fun h j => by
    have hj : s.slot (BitVec.ofFin j) = s.vc[j] := rfl
    exact hj ▸ h (BitVec.ofFin j)⟩

theorem normalsSound_iff {s : State} :
    NormalsSound s ↔ normalSound s.normal = true ∧ ∀ j, normalSound (s.slot j).normal = true :=
  and_congr_right fun _ => forall_slot fun x => normalSound x.normal = true

theorem allDefined_iff {s : State} :
    AllDefined s ↔ s.pos.isSome = true ∧ s.color.isSome = true ∧ s.alpha.isSome = true ∧ s.normal.isSome = true ∧
      ∀ j, (s.slot j).defined = true := by
  rw [← forall_slot fun x => x.defined = true]

theorem Slot.defined_iff {x : Slot} :
    x.defined = true ↔ x.pos.isSome = true ∧ x.normal.isSome = true ∧ x.color.isSome = true ∧ x.alpha.isSome = true := by
  simp [Slot.defined, and_assoc]

/-- A slot write keeps what holds of every slot, if it holds of the written value. -/
theorem forall_slot_setSlot {s : State} (P : Slot → Prop) {i : BitVec 4} {v : Slot} (hs : ∀ j, P (s.slot j)) (hv : P v)
    (j : BitVec 4) : P ((s.setSlot i v).slot j) := by
  by_cases hj : j = i
  · rw [hj, State.slot_setSlot_same]; exact hv
  · rw [State.slot_setSlot_other s v hj]; exact hs j

/-- A position push keeps what holds of every slot, if it holds of the slot that takes P. -/
theorem forall_slot_pushPosition {s : State} (P : Slot → Prop) (hs : ∀ j, P (s.slot j))
    (hv : P { s.slot (s.wi + 1) with pos := s.pos }) (j : BitVec 4) : P (s.pushPosition.slot j) := by
  rw [State.slot_pushPosition]
  split
  · exact hv
  · exact hs j

theorem Move.normalsSound {s t : State} (h : Move s t) (hs : NormalsSound s) : NormalsSound t := by
  obtain ⟨hnormal, hcache⟩ := normalsSound_iff.1 hs
  rw [normalsSound_iff]
  cases h with
  | setNormal n hn => exact ⟨hn, hcache⟩
  | reuseNormal j n hn => exact ⟨by rw [State.setNormal_normal, ← hn]; exact hcache j, hcache⟩
  | pushPosition => exact ⟨hnormal, forall_slot_pushPosition (normalSound ·.normal = true) hcache (hcache (s.wi + 1))⟩
  | pushNormal => exact ⟨hnormal, forall_slot_setSlot (normalSound ·.normal = true) hcache hnormal⟩
  | pushColor => exact ⟨hnormal, forall_slot_setSlot (normalSound ·.normal = true) hcache (hcache s.wi)⟩
  | _ => exact ⟨hnormal, hcache⟩

theorem Move.allDefined {s t : State} (h : Move s t) (hs : AllDefined s) : AllDefined t := by
  obtain ⟨hpos, hcolor, halpha, hnormal, hcache⟩ := allDefined_iff.1 hs
  rw [allDefined_iff]
  cases h with
  | setPos v => exact ⟨rfl, hcolor, halpha, hnormal, hcache⟩
  | setColor v => exact ⟨hpos, rfl, halpha, hnormal, hcache⟩
  | setAlpha v => exact ⟨hpos, hcolor, rfl, hnormal, hcache⟩
  | setNormal n | reuseNormal j n => exact ⟨hpos, hcolor, halpha, rfl, hcache⟩
  | pushPosition =>
    obtain ⟨-, hn, hc, ha⟩ := Slot.defined_iff.1 (hcache (s.wi + 1))
    exact ⟨hpos, hcolor, halpha, hnormal, forall_slot_pushPosition (·.defined = true) hcache (Slot.defined_iff.2 ⟨hpos, hn, hc, ha⟩)⟩
  | pushNormal =>
    obtain ⟨hp, -, hc, ha⟩ := Slot.defined_iff.1 (hcache s.wi)
    exact ⟨hpos, hcolor, halpha, hnormal, forall_slot_setSlot (·.defined = true) hcache (Slot.defined_iff.2 ⟨hp, hnormal, hc, ha⟩)⟩
  | pushColor =>
    obtain ⟨hp, hn, -, -⟩ := Slot.defined_iff.1 (hcache s.wi)
    exact ⟨hpos, hcolor, halpha, hnormal, forall_slot_setSlot (·.defined = true) hcache (Slot.defined_iff.2 ⟨hp, hn, hcolor, halpha⟩)⟩
  | _ => exact ⟨hpos, hcolor, halpha, hnormal, hcache⟩

/-- Every table of the state is sound. -/
theorem registersSound_iff {s : State} :
    RegistersSound s ↔ BfxSound s ∧ (∀ k, TableSound k (s.table k)) ∧ NormalsSound s ∧
      (s.params.unwrittenRead = .zero → AllDefined s) :=
  ⟨fun ⟨hbfx, hpos, hcol, hnrm, hrest⟩ => ⟨hbfx, fun k => by cases k <;> assumption, hrest⟩,
    fun ⟨hbfx, htables, hrest⟩ => ⟨hbfx, htables .position, htables .color, htables .normal, hrest⟩⟩

theorem Move.registersSound {s t : State} (h : Move s t) (hs : RegistersSound s) : RegistersSound t := by
  obtain ⟨hbfx, htables, hnormals, hzero⟩ := registersSound_iff.1 hs
  refine registersSound_iff.2 ⟨h.bfxSound hbfx, fun k => ?_, h.normalsSound hnormals, ?_⟩
  · rw [h.sameConfiguration.table k]
    exact htables k
  · rw [h.sameRequest.params]
    exact fun hp => h.allDefined (hzero hp)

theorem Moves.registersSound {s t : State} (h : Moves s t) (hs : RegistersSound s) : RegistersSound t :=
  h.keep Move.registersSound hs

theorem tableSound_fillSlots {k : TableId} {t : Table} {adr : BitVec 7} {e : Entry} (ht : TableSound k t)
    (he : Entry.legal k e = true) : TableSound k (fillSlots t adr e) := by
  intro i
  simp only [fillSlots, Fin.getElem_fin, Vector.getElem_ofFn]
  split
  · exact he
  · exact ht i

/-- A legal entry in a table keeps the registers sound. -/
theorem registersSound_setTable {u : State} {k : TableId} {adr : BitVec 7} {e : Entry} (hu : RegistersSound u)
    (he : Entry.legal k e = true) : RegistersSound (u.setTable k (fillSlots (u.table k) adr e)) := by
  obtain ⟨hbfx, htables, hnormals, hzero⟩ := registersSound_iff.1 hu
  have htables' : ∀ k', TableSound k' ((u.setTable k (fillSlots (u.table k) adr e)).table k') := by
    intro k'
    by_cases hk : k' = k
    · subst hk
      rw [State.table_setTable_same]
      exact tableSound_fillSlots (htables k') he
    · rw [State.table_setTable_other u _ hk]
      exact htables k'
  exact registersSound_iff.2 ⟨by simpa [BfxSound] using hbfx, htables', by simpa [normalsSound_iff] using hnormals,
    by simpa [allDefined_iff] using hzero⟩

end Sys2Proof.Machine
end

section
/-! What a command and a step keep, and the invariant of the machine. -/

namespace Sys2Proof.Machine

/-! Commands. -/

theorem CommandEnd.sameRequest {i : Instr} {u t : State} (h : CommandEnd i u t) : SameRequest u t := by
  cases h with
  | setsTable sel a6 k => constructor <;> simp
  | _ => exact ⟨rfl, rfl, rfl, rfl, rfl, rfl, rfl, rfl, rfl, rfl, rfl⟩

/-- A command that does not fail leaves the registers sound. -/
theorem CommandEnd.registersSound {i : Instr} {u t : State} (h : CommandEnd i u t) (ht : t.status.isError = false)
    (hu : RegistersSound u) : RegistersSound t := by
  cases h with
  | completes => exact hu
  | setsTable sel a6 k adr e _ _ he => exact registersSound_setTable hu he
  | setsBundling => exact hu
  | fails => cases ht

/-- The stream offset stands where the moves left it. -/
theorem CommandEnd.bitpos {i : Instr} {u t : State} (h : CommandEnd i u t) (ht : t.status.isError = false) :
    t.bitpos = u.bitpos := by
  cases h with
  | completes | setsBundling => rfl
  | setsTable => exact State.setTable_bitpos _ _ _
  | fails => cases ht

theorem CommandEnd.table {i : Instr} {u t : State} (h : CommandEnd i u t) (ht : t.status.isError = false) {k : TableId}
    (hk : ∀ sel a6, i = .stb sel a6 → tableOfSelect sel ≠ some k) : t.table k = u.table k := by
  cases h with
  | completes => rfl
  | setsTable sel a6 k' adr e hi hk' =>
    have hne : k ≠ k' := fun heq => hk sel a6 hi (heq ▸ hk')
    exact State.table_setTable_other u _ hne
  | setsBundling => simp
  | fails => cases ht

theorem CommandEnd.bundling {i : Instr} {u t : State} (h : CommandEnd i u t) (ht : t.status.isError = false)
    (hi : ∀ x bn, i ≠ .sst x bn) : t.bn = u.bn ∧ t.bc = u.bc ∧ t.ba = u.ba := by
  cases h with
  | completes => exact ⟨rfl, rfl, rfl⟩
  | setsTable => simp
  | setsBundling x bn _ _ hx => exact absurd hx (hi x bn)
  | fails => cases ht

/-- Where every part is defined, no command of a running decode ends in UNDEFINED_READ. -/
theorem CommandEnd.reason_ne_undefinedRead {i : Instr} {u t : State} {e : ErrorRecord} (h : CommandEnd i u t)
    (hrun : u.status = .run) (hu : AllDefined u) (ht : t.status = .error e) : e.reason ≠ .undefinedRead := by
  cases h with
  | completes | setsBundling => exact absurd (hrun.symm.trans ht) (by simp)
  | setsTable => rw [State.setTable_status, hrun] at ht; cases ht
  | fails r info hr => cases ht; exact fun heq => hr heq hu

/-! Steps. -/

/-- A dispatcher iteration is a command like the others, its fetch included. -/
theorem dispatch_ends {s t : State} (h : dispatch s = .next t) : ∃ i u, Moves s u ∧ CommandEnd i u t := by
  unfold dispatch at h
  split at h
  · next i v hf =>
    obtain ⟨u, hmoves, hend⟩ := exec_ends h
    exact ⟨i, u, ((fetch_confined s).ok hf).trans hmoves, hend⟩
  · next e v hf =>
    obtain ⟨hmoves, hlack⟩ := (fetch_confined s).stops hf
    cases e with
    | raise r info => cases h; exact ⟨.eos, v, hmoves, .fails r info fun hr => hlack info (by rw [hr])⟩
    | noByte a => cases h

/-- All that a step can do: take a Decode call or a host write, run a command, end the decode, or wait. -/
theorem step_cases {s t : State} (h : step s = .next t) :
    (∃ array start len vmaj vmin vminmin, s.call = some (.decode array start len vmaj vmin vminmin) ∧ s.status ≠ .run ∧
      t = decodeStart start len vmaj vmin vminmin ((s.setCall none).supplyArray array)) ∨
    (∃ a b, s.call = some (.writeBuffer a b) ∧ a < s.hostSize ∧
      t = { s.setCall none with hostBuf := s.hostBuf.write a b }) ∨
    (s.call = none ∧ s.status = .run ∧ ∃ i u, Moves s u ∧ CommandEnd i u t) ∨
    (s.call = none ∧ s.status = .run ∧ t = s.setStatus .done) ∨
    (s.call = none ∧ s.status ≠ .run ∧ t = s.await) := by
  unfold step at h
  split at h
  · next call hcall =>
    rcases takeCall_next h with ⟨array, start, len, vmaj, vmin, vminmin, rfl, hrun, rfl⟩ | ⟨a, b, rfl, hw⟩
    · exact .inl ⟨array, start, len, vmaj, vmin, vminmin, hcall, hrun, rfl⟩
    · obtain ⟨-, ha, rfl⟩ := hostWrite_next.1 hw
      exact .inr (.inl ⟨a, b, hcall, ha, rfl⟩)
  · next hcall =>
    split at h
    · next hrun =>
      split at h
      · exact .inr (.inr (.inl ⟨hcall, hrun, dispatch_ends h⟩))
      · cases h; exact .inr (.inr (.inr (.inl ⟨hcall, hrun, rfl⟩)))
    all_goals
      next hst => cases h; exact .inr (.inr (.inr (.inr ⟨hcall, by simp [hst], rfl⟩)))

/-! The invariant. -/

theorem unwritten_zero {α : Type} {params : Params} (h : params.unwrittenRead = .zero) (a : α) :
    unwritten params a = some a := by
  simp [unwritten, h]

theorem unwritten_fault {α : Type} {params : Params} (h : params.unwrittenRead = .fault) (a : α) :
    unwritten params a = none := by
  simp [unwritten, h]

/-- A register that nothing has written lies in the triangle: ⊥ or zero. -/
theorem normalSound_unwritten (params : Params) : normalSound (unwritten params ⟨0, 0, 0, 0⟩) = true := by
  cases h : params.unwrittenRead with
  | fault => rw [unwritten_fault h]; rfl
  | zero => rw [unwritten_zero h]; rfl

@[simp] theorem State.resetRegisters_slot (s : State) (j : BitVec 4) :
    s.resetRegisters.slot j = unwrittenSlot s.params := by
  simp [State.slot]

@[simp] theorem State.resetRegisters_entryAt (s : State) (k : TableId) (h6 : BitVec 6) :
    s.resetRegisters.entryAt k h6 = none := by
  cases k <;> simp [State.entryAt, State.table]

/-- The reset leaves sound registers, where E lies in the buffer. -/
theorem registersSound_resetRegisters {s : State} (h : s.endAddr ≤ s.size) : RegistersSound s.resetRegisters := by
  have hbfx : BfxSound s.resetRegisters := by
    refine ⟨Nat.le_refl _, Nat.le_add_right _ _, h, ?_, Nat.zero_le _, Nat.zero_le _, rfl⟩
    simp
  have htables : ∀ k, TableSound k (s.resetRegisters.table k) := by
    intro k i
    cases k <;> simp [State.table]
  refine registersSound_iff.2 ⟨hbfx, htables, normalsSound_iff.2 ?_, fun hzero => allDefined_iff.2 ?_⟩
  · exact ⟨normalSound_unwritten s.params, fun j => by
      rw [State.resetRegisters_slot]; exact normalSound_unwritten s.params⟩
  · have hp : s.params.unwrittenRead = .zero := hzero
    simp [unwritten_zero hp, unwrittenSlot, Slot.defined]

theorem sound_of_isError {s : State} (hbuf : Memory.wf s.size s.buf = true)
    (hhost : Memory.wf s.hostSize s.hostBuf = true) (h : s.status.isError = true) : Sound s :=
  ⟨hbuf, hhost, by rintro (hs | hs) <;> rw [hs] at h <;> cases h⟩

/-- A Decode call keeps the invariant, whatever its pre-checks answer. -/
theorem sound_decodeStart {s : State} (start len vmaj vmin vminmin : Nat) (hbuf : Memory.wf s.size s.buf = true)
    (hhost : Memory.wf s.hostSize s.hostBuf = true) : Sound (decodeStart start len vmaj vmin vminmin s) := by
  rcases decodeStart_cases start len vmaj vmin vminmin s with ⟨-, h⟩ | ⟨-, -, h⟩ | ⟨hlen, -, h⟩ <;> rw [h]
  · exact sound_of_isError hbuf hhost rfl
  · exact sound_of_isError hbuf hhost rfl
  · exact ⟨hhost, hhost, fun _ => registersSound_resetRegisters hlen⟩

/-- Settles O53: the reset state is a reset of its own registers, with E = 0 in an empty buffer. -/
theorem resetIsSound : Obligations.ResetIsSound :=
  ⟨Memory.wf_reset, rfl, fun _ => State.resetRegisters_reset ▸ registersSound_resetRegisters (Nat.le_refl 0)⟩

/-- Settles O54, by the cases of a step: the moves of a command keep the registers sound. -/
theorem stepKeepsSound : Obligations.StepKeepsSound := by
  intro s t hs h
  obtain ⟨hbuf, hhost, hregs⟩ := hs
  rcases step_cases h with ⟨array, start, len, vmaj, vmin, vminmin, -, -, rfl⟩ | ⟨a, b, -, ha, rfl⟩ |
    ⟨-, hrun, i, u, hmoves, hend⟩ | ⟨-, hrun, rfl⟩ | ⟨-, hrun, rfl⟩
  · exact sound_decodeStart start len vmaj vmin vminmin hbuf (Memory.wf_supplyArray (s.setCall none) array hhost)
  · exact ⟨hbuf, Memory.wf_write hhost ha, hregs⟩
  · have hsame := hmoves.sameRequest.trans hend.sameRequest
    have hu : RegistersSound u := hmoves.registersSound (hregs (.inl hrun))
    refine ⟨by rw [hsame.size, hsame.buf]; exact hbuf, by rw [hsame.hostSize, hsame.hostBuf]; exact hhost, fun ht => ?_⟩
    exact hend.registersSound (by rcases ht with ht | ht <;> rw [ht] <;> rfl) hu
  · exact ⟨hbuf, hhost, fun _ => hregs (.inl hrun)⟩
  · refine ⟨hbuf, hhost, fun ht => ?_⟩
    have hwait : s.await.status = s.status.betweenDecodes := rfl
    rw [hwait] at ht
    cases hst : s.status <;> rw [hst] at ht hrun <;> simp [Status.betweenDecodes] at ht hrun

/-- Settles O58: every part stays defined while a command moves, so no read lacks its value. -/
theorem zeroPolicyNeverUndefined : Obligations.ZeroPolicyNeverUndefined := by
  rintro s t e ⟨-, -, hregs⟩ hcall hrun hzero h ht
  rcases step_cases h with ⟨_, _, _, _, _, _, hc, -⟩ | ⟨_, _, hc, -⟩ | ⟨-, -, i, u, hmoves, hend⟩ | ⟨-, -, rfl⟩ | ⟨-, hne, -⟩
  · rw [hcall] at hc; cases hc
  · rw [hcall] at hc; cases hc
  · obtain ⟨-, -, -, hdefined⟩ := registersSound_iff.1 (hmoves.registersSound (hregs (.inl hrun)))
    exact hend.reason_ne_undefinedRead (hmoves.status.trans hrun) (hdefined (hmoves.sameRequest.params ▸ hzero)) ht
  · cases ht
  · exact absurd hrun hne

/-! Frames over all commands. -/

/-- Settles O45: no move and no end of a command writes what a Decode call latched or the host owns. -/
theorem commandsKeepBufferRequestAndRom : Obligations.CommandsKeepBufferRequestAndRom := by
  refine ⟨fun i s t h => ?_, fun s t hrun h => ?_⟩
  · obtain ⟨u, hmoves, hend⟩ := exec_ends h
    obtain ⟨⟩ := hmoves.sameRequest.trans hend.sameRequest
    refine ⟨?_, ?_, ?_, ?_, ?_, ?_, ?_, ?_, ?_, ?_, ?_⟩ <;> assumption
  · rcases step_cases h with ⟨_, _, _, _, _, _, -, hne, -⟩ | ⟨a, b, -, -, rfl⟩ | ⟨-, -, i, u, hmoves, hend⟩ | ⟨-, -, rfl⟩ |
      ⟨-, hne, -⟩
    · exact absurd hrun hne
    · exact ⟨rfl, rfl, rfl, rfl, rfl, rfl, rfl, rfl⟩
    · obtain ⟨⟩ := hmoves.sameRequest.trans hend.sameRequest
      refine ⟨?_, ?_, ?_, ?_, ?_, ?_, ?_, ?_⟩ <;> assumption
    · exact ⟨rfl, rfl, rfl, rfl, rfl, rfl, rfl, rfl⟩
    · exact absurd hrun hne

/-- Settles O46: no move writes a table or a bundling flag, so only the ends of STB and SST do. -/
theorem onlySetCommandsWriteConfiguration : Obligations.OnlySetCommandsWriteConfiguration := by
  intro i s t h ht
  obtain ⟨u, hmoves, hend⟩ := exec_ends h
  obtain ⟨htable, hbn, hbc, hba⟩ := hmoves.sameConfiguration
  refine ⟨fun k hk => (hend.table ht hk).trans (htable k), fun hi => ?_⟩
  obtain ⟨hbn', hbc', hba'⟩ := hend.bundling ht hi
  exact ⟨hbn'.trans hbn, hbc'.trans hbc, hba'.trans hba⟩

/-- Settles O51: a load and a take never move the offset back, and no end of a command moves it. -/
theorem streamPositionOnlyAdvances : Obligations.StreamPositionOnlyAdvances := by
  intro i s t h ht
  obtain ⟨u, hmoves, hend⟩ := exec_ends h
  rw [hend.bitpos ht]
  exact hmoves.bitpos_le

end Sys2Proof.Machine
end

section
/-! The host's calls: what a Decode call resets, and what a host write may change. -/

namespace Sys2Proof.Machine

/-- A pending call is what the step takes. -/
theorem step_of_call {s : State} {call : HostCall} (h : s.call = some call) : step s = takeCall call s := by
  simp only [step, h]

theorem takeCall_decode_running {s : State} (array : Option (List Byte)) (start len vmaj vmin vminmin : Nat)
    (h : s.status = .run) : takeCall (.decode array start len vmaj vmin vminmin) s = .refused .decodeWhileRunning :=
  if_pos h

theorem takeCall_decode_waiting {s : State} (array : Option (List Byte)) (start len vmaj vmin vminmin : Nat)
    (h : s.status ≠ .run) : takeCall (.decode array start len vmaj vmin vminmin) s =
      .next (decodeStart start len vmaj vmin vminmin ((s.setCall none).supplyArray array)) :=
  if_neg h

/-- A Decode call that passes both pre-checks resets the latched request. -/
theorem decodeStart_of_checks {s : State} {start len vmaj vmin vminmin : Nat} (hlen : start + len ≤ s.hostSize)
    (hver : versionOk s.params vmaj vmin vminmin = true) : decodeStart start len vmaj vmin vminmin s =
      (s.latchRequest start len vmaj vmin vminmin).resetRegisters := by
  rcases decodeStart_cases start len vmaj vmin vminmin s with ⟨h, -⟩ | ⟨-, h, -⟩ | ⟨-, -, h⟩
  · omega
  · rw [hver] at h; cases h
  · exact h

theorem supplyArray_hostSize_eq (s : State) (array : Option (List Byte)) :
    (s.supplyArray array).hostSize = (array.map List.length).getD s.hostSize := by
  cases array <;> rfl

/-- Settles O12: the state of the step is the reset of the latched request, field by field. -/
theorem decodeStartResets : Obligations.DecodeStartResets := by
  intro s array start len vmaj vmin vminmin hcall hrun hlen hver
  have hlen' : start + len ≤ ((s.setCall none).supplyArray array).hostSize :=
    hlen.trans_eq (supplyArray_hostSize_eq (s.setCall none) array).symm
  refine ⟨_, by
    rw [step_of_call hcall, takeCall_decode_waiting array start len vmaj vmin vminmin hrun,
      decodeStart_of_checks hlen' hver], ?_⟩
  refine ⟨?newArray, ?sameArray, rfl, rfl, rfl, rfl, rfl, rfl, rfl, rfl, rfl, rfl, rfl, rfl, fun k h6 => by simp,
    fun j => by simp, fun hfault => ?_, fun hzero => ?_, rfl, rfl, rfl, rfl, rfl, rfl, rfl, rfl, rfl, rfl, rfl⟩
  case newArray =>
    rintro bytes rfl
    refine ⟨rfl, fun a ha => ?_⟩
    have hread := Memory.read_ofBytesFrom (a := 0) ha
    rwa [Nat.zero_add] at hread
  case sameArray =>
    rintro rfl
    exact ⟨rfl, rfl⟩
  · simp [unwritten_fault hfault]
  · simp [unwritten_zero hzero]

/-- A host write that is allowed faults at an address its array does not have (log entry 11). -/
theorem hostWrite_fault {a : Nat} {b : Byte} {s : State} (hallowed : ¬(s.status = .run ∧ s.start ≤ a ∧ a < s.endAddr))
    (ha : s.hostSize ≤ a) : hostWrite a b s = .fault (.noSuchByte a) := by
  rw [hostWrite, if_neg hallowed, if_pos ha]

/-- Settles O15, from what a call may do: `takeCall_decode_running`, `hostWrite_refused`, `hostWrite_next`. -/
theorem hostCallsRefusedOrWriteOneByte : Obligations.HostCallsRefusedOrWriteOneByte := by
  intro s
  refine ⟨fun hrun => ⟨fun array start len vmaj vmin vminmin hcall => ?_, fun a b hcall hlow hhigh => ?_⟩,
    fun a b hcall hout => ?_⟩
  · rw [step_of_call hcall]
    exact takeCall_decode_running array start len vmaj vmin vminmin hrun
  · rw [step_of_call hcall]
    exact hostWrite_refused.2 ⟨⟨hrun, hlow, hhigh⟩, rfl⟩
  · have hallowed : ¬(s.status = .run ∧ s.start ≤ a ∧ a < s.endAddr) := fun ⟨hrun, hlow, hhigh⟩ => by
      have := hout hrun
      omega
    rw [step_of_call hcall]
    refine ⟨fun hwf ha => ?_, fun ha => ?_⟩
    · exact ⟨s.hostBuf.write a b, hostWrite_next.2 ⟨hallowed, ha, rfl⟩, Memory.wf_write hwf ha,
        Memory.read_write_same hwf, fun i hi => Memory.read_write_other hi⟩
    · exact hostWrite_fault hallowed ha

end Sys2Proof.Machine
end

section
/-! The mesh-use flags and the cache under each part of a command that completes, and what follows for whole commands. -/

namespace Sys2Proof.Machine

/-! The relations between the state before and after. -/

/-- WI and every slot but the one it selects are the same: what a bundled part leaves of the cache. -/
structure SameButSlotWi (s t : State) : Prop where
  wi : t.wi = s.wi
  slot : ∀ j, j ≠ s.wi → t.slot j = s.slot j

theorem SameButSlotWi.refl (s : State) : SameButSlotWi s s := ⟨rfl, fun _ _ => rfl⟩

theorem SameButSlotWi.trans {s t u : State} (h : SameButSlotWi s t) (h' : SameButSlotWi t u) : SameButSlotWi s u where
  wi := h'.wi.trans h.wi
  slot j hj := (h'.slot j (h.wi ▸ hj)).trans (h.slot j hj)

theorem slot_of_vc {s t : State} (h : t.vc = s.vc) (j : BitVec 4) : t.slot j = s.slot j := by
  simp only [State.slot, h]

theorem sameButSlotWi_of_eq {s t : State} (hwi : t.wi = s.wi) (hvc : t.vc = s.vc) : SameButSlotWi s t :=
  ⟨hwi, fun j _ => slot_of_vc hvc j⟩

/-- It depends on WI and the cache only. -/
theorem SameButSlotWi.of_eq {r s t : State} (h : SameButSlotWi r t) (hwi : r.wi = s.wi) (hvc : r.vc = s.vc) :
    SameButSlotWi s t :=
  (sameButSlotWi_of_eq hwi hvc).trans h

/-- WI stays or advances, and every slot but the one it then selects is the same. -/
structure CacheStep (s t : State) : Prop where
  wi : t.wi = s.wi ∨ t.wi = s.wi + 1
  slot : ∀ j, j ≠ t.wi → t.slot j = s.slot j

theorem SameButSlotWi.cacheStep {s t : State} (h : SameButSlotWi s t) : CacheStep s t :=
  ⟨.inl h.wi, fun j hj => h.slot j (h.wi ▸ hj)⟩

/-- After a position the parts that follow write the slot it has chosen. -/
theorem CacheStep.then {s t u : State} (h : CacheStep s t) (h' : SameButSlotWi t u) : CacheStep s u where
  wi := h'.wi ▸ h.wi
  slot j hj := (h'.slot j (h'.wi ▸ hj)).trans (h.slot j (h'.wi ▸ hj))

/-! Each part of a command. -/

theorem fetchNext_eq {n : Nat} {s t : State} {x : Unit} (h : fetchNext n s = .ok x t) :
    ∃ p w c b, t = (s.setBfx p w c).setNxt b := by
  obtain ⟨b, u, hg, rfl⟩ := fetchNext_ok.1 h
  obtain ⟨p, w, c, rfl⟩ := getBits_ok hg
  exact ⟨p, w, c, _, rfl⟩

/-- `t` is `r` after a write of the slot WI, when asked (42_normal.md rule R151; 43_color.md rule R176), and perhaps an
event. -/
def PushedFrom (mbp : Bool) (r t : State) : Prop :=
  ∃ v, t = (if mbp then r.setSlot r.wi v else r) ∨ ∃ e, t = (if mbp then r.setSlot r.wi v else r).emit e

theorem pushedFrom_set (mbp : Bool) (r : State) (v : Slot) : PushedFrom mbp r (if mbp then r.setSlot r.wi v else r) :=
  ⟨v, .inl rfl⟩

theorem pushedFrom_emit (mbp : Bool) (r : State) (v : Slot) (e : Event) :
    PushedFrom mbp r ((if mbp then r.setSlot r.wi v else r).emit e) :=
  ⟨v, .inr ⟨e, rfl⟩⟩

theorem PushedFrom.flags {mbp : Bool} {r t : State} (h : PushedFrom mbp r t) : t.useMn = r.useMn ∧ t.useMc = r.useMc := by
  obtain ⟨v, rfl | ⟨e, rfl⟩⟩ := h <;> cases mbp <;> exact ⟨rfl, rfl⟩

theorem PushedFrom.cache {mbp : Bool} {r t : State} (h : PushedFrom mbp r t) : SameButSlotWi r t := by
  have hset : ∀ v, SameButSlotWi r (if mbp then r.setSlot r.wi v else r) := by
    intro v
    cases mbp with
    | false => exact .refl r
    | true => exact ⟨rfl, fun j hj => State.slot_setSlot_other r v hj⟩
  obtain ⟨v, rfl | ⟨e, rfl⟩⟩ := h
  · exact hset v
  · exact ⟨(hset v).wi, (hset v).slot⟩

theorem PushedFrom.vc {r t : State} (h : PushedFrom false r t) : t.vc = r.vc := by
  obtain ⟨v, rfl | ⟨e, rfl⟩⟩ := h <;> rfl

/-- A normal command that completes clears USE_MN, leaves WI and the cache, and then pushes. -/
theorem setNormalCommand_pushed {h6 : BitVec 6} {mbp : Bool} {s t : State} {x : Unit}
    (h : setNormalCommand h6 mbp s = .ok x t) :
    ∃ r, r.useMn = false ∧ r.useMc = s.useMc ∧ r.wi = s.wi ∧ r.vc = s.vc ∧ PushedFrom mbp r t := by
  obtain ⟨e, n, p, w, c, -, -, -, -, rfl⟩ := setNormalCommand_ok h
  refine ⟨(s.clearUseMn.setBfx p w c).setNormal n, rfl, rfl, rfl, rfl, ?_⟩
  dsimp only
  split
  · exact pushedFrom_set ..
  · exact pushedFrom_emit ..

/-- An accumulation writes neither a flag nor the cache. -/
theorem accumulateColor_frame {e : Entry} {fs : List Nat} {s t : State} {x : Unit}
    (h : accumulateColor e fs s = .ok x t) :
    t.useMn = s.useMn ∧ t.useMc = s.useMc ∧ t.wi = s.wi ∧ t.vc = s.vc := by
  obtain ⟨c, rfl, -⟩ := accumulateColor_ok h
  split <;> exact ⟨rfl, rfl, rfl, rfl⟩

/-- A color command that completes clears USE_MC, leaves WI and the cache, and then pushes. -/
theorem setColorCommand_pushed {h6 : BitVec 6} {mbp : Bool} {s t : State} {x : Unit}
    (h : setColorCommand h6 mbp s = .ok x t) :
    ∃ r, r.useMn = s.useMn ∧ r.useMc = false ∧ r.wi = s.wi ∧ r.vc = s.vc ∧ PushedFrom mbp r t := by
  obtain ⟨e, fs, p, w, c, r, -, -, -, hr, hquiet, hsend⟩ := setColorCommand_ok h
  obtain ⟨hmn, hmc, hwi, hvc⟩ := accumulateColor_frame hr
  refine ⟨r, hmn, hmc, hwi, hvc, ?_⟩
  cases hbc : r.bc with
  | true => rw [hquiet hbc]; exact pushedFrom_set ..
  | false =>
    obtain ⟨v, -, ht⟩ := hsend hbc
    rw [ht]
    exact pushedFrom_emit ..

/-- A bundled normal that completes is, for the flags and the cache, the normal command. -/
theorem bundledNormal_pushed {h6 : BitVec 6} {mbp : Bool} {s t : State} {x : Unit}
    (h : bundledNormal h6 mbp s = .ok x t) :
    ∃ r, r.useMn = false ∧ r.useMc = s.useMc ∧ r.wi = s.wi ∧ r.vc = s.vc ∧ PushedFrom mbp r t := by
  obtain ⟨_, _, hs, h⟩ := Op.bind_ok.1 h
  cases hs
  obtain ⟨_, _, hs, h⟩ := Op.bind_ok.1 h
  cases hs
  obtain ⟨_, u, hf, h⟩ := Op.bind_ok.1 h
  obtain ⟨p, w, c, b, rfl⟩ := fetchNext_eq hf
  simpa using setNormalCommand_pushed h

/-- A bundled color that completes is, for the flags and the cache, the color command. -/
theorem bundledColor_pushed {h6 : BitVec 6} {mbp : Bool} {s t : State} {x : Unit} (h : bundledColor h6 mbp s = .ok x t) :
    ∃ r, r.useMn = s.useMn ∧ r.useMc = false ∧ r.wi = s.wi ∧ r.vc = s.vc ∧ PushedFrom mbp r t := by
  obtain ⟨_, _, hs, h⟩ := Op.bind_ok.1 h
  cases hs
  obtain ⟨_, u, hf, h⟩ := Op.bind_ok.1 h
  obtain ⟨p, w, c, b, rfl⟩ := fetchNext_eq hf
  simpa using setColorCommand_pushed h

theorem bundledNormal_cache {h6 : BitVec 6} {mbp : Bool} {s t : State} {x : Unit} (h : bundledNormal h6 mbp s = .ok x t) :
    SameButSlotWi s t := by
  obtain ⟨r, -, -, hwi, hvc, hpush⟩ := bundledNormal_pushed h
  exact hpush.cache.of_eq hwi hvc

theorem bundledColor_cache {h6 : BitVec 6} {mbp : Bool} {s t : State} {x : Unit} (h : bundledColor h6 mbp s = .ok x t) :
    SameButSlotWi s t := by
  obtain ⟨r, -, -, hwi, hvc, hpush⟩ := bundledColor_pushed h
  exact hpush.cache.of_eq hwi hvc

theorem slot_pushPosition_other {s : State} {j : BitVec 4} (h : j ≠ s.pushPosition.wi) :
    s.pushPosition.slot j = s.slot j := by
  rw [State.slot_pushPosition]
  exact if_neg h

theorem vertexPosition_cache {h6 : BitVec 6} {mbp : Bool} {s t : State} (h : vertexPosition h6 s = .ok mbp t) :
    CacheStep s t := by
  obtain ⟨e, rm, fs, q, p, w, c, -, -, -, -, -, -, -, rfl⟩ := vertexPosition_ok h
  cases mbp with
  | false => exact ⟨.inl (by simp), fun j _ => by simp⟩
  | true =>
    exact ⟨.inr (by simp), fun j hj => (slot_pushPosition_other hj).trans (by simp)⟩

theorem emitVertex_flags {s t : State} {x : Unit} (h : emitVertex s = .ok x t) : t.useMn = true ∧ t.useMc = true := by
  obtain ⟨p, n, c, -, -, -, rfl⟩ := emitVertex_ok.1 h
  exact ⟨rfl, rfl⟩

theorem emitVertex_cache {s t : State} {x : Unit} (h : emitVertex s = .ok x t) : t.wi = s.wi ∧ t.vc = s.vc := by
  obtain ⟨p, n, c, -, -, -, rfl⟩ := emitVertex_ok.1 h
  exact ⟨rfl, rfl⟩

/-- The parts of a vertex step that completes: a lookahead, its position, the bundled parts and the emission. -/
theorem vertexStep_ok {h6 : BitVec 6} {s t : State} {x : Unit} (h : vertexStep h6 s = .ok x t) :
    ∃ p win c b mbp v w, vertexPosition h6 ((s.setBfx p win c).setNxt b) = .ok mbp v ∧ SameButSlotWi v w ∧
      emitVertex w = .ok () t := by
  obtain ⟨_, _, hs, h⟩ := Op.bind_ok.1 h
  cases hs
  cases hbn : s.bn <;> cases hbc : s.bc <;> simp only [hbn, hbc] at h
  all_goals
    obtain ⟨_, u, hu, h⟩ := Op.bind_ok.1 h
    obtain ⟨p, win, c, b, rfl⟩ := fetchNext_eq hu
    obtain ⟨mbp, v, hv, h⟩ := Op.bind_ok.1 h
    refine ⟨p, win, c, b, mbp, v, ?_⟩
  · exact ⟨v, hv, .refl v, h⟩
  all_goals
    obtain ⟨_, _, hs, h⟩ := Op.bind_ok.1 h
    cases hs
    obtain ⟨_, w, hw, h⟩ := Op.bind_ok.1 h
  · exact ⟨w, hv, bundledColor_cache hw, h⟩
  · exact ⟨w, hv, bundledNormal_cache hw, h⟩
  · obtain ⟨_, _, hs, h⟩ := Op.bind_ok.1 h
    cases hs
    obtain ⟨_, w', hw', h⟩ := Op.bind_ok.1 h
    exact ⟨w', hv, (bundledNormal_cache hw).trans (bundledColor_cache hw'), h⟩

theorem vertexStep_cache {h6 : BitVec 6} {s t : State} {x : Unit} (h : vertexStep h6 s = .ok x t) : CacheStep s t := by
  obtain ⟨p, win, c, b, mbp, v, w, hv, hw, ht⟩ := vertexStep_ok h
  obtain ⟨hwi, hvc⟩ := emitVertex_cache ht
  obtain ⟨hwi', hslot'⟩ := ((vertexPosition_cache hv).then hw).then (sameButSlotWi_of_eq hwi hvc)
  exact ⟨hwi', hslot'⟩

/-- A reference takes P from its slot and leaves WI and the cache (44_mesh_reference.md rules R192, R193). -/
theorem meshReference_frame {k : BitVec 4} {r1 : Bool} {s t : State} {x : Unit} (h : meshReference k r1 s = .ok x t) :
    (s.slot (s.wi - k)).pos.isSome = true ∧ t.pos = (s.slot (s.wi - k)).pos ∧ t.wi = s.wi ∧ t.vc = s.vc := by
  obtain ⟨r0, p, w, c, q, u, v, -, hq, hu, hv, rfl⟩ := meshReference_ok h
  have hu' : u.pos = some q ∧ u.wi = s.wi ∧ u.vc = s.vc := by
    rcases reuseNormal_eq hu with rfl | ⟨n, rfl⟩ <;> exact ⟨rfl, rfl, rfl⟩
  have hv' : v.pos = u.pos ∧ v.wi = u.wi ∧ v.vc = u.vc := by
    rcases reuseColor_ok.1 hv with ⟨-, a, -, ⟨-, b, -, rfl⟩ | ⟨-, rfl⟩⟩ | ⟨-, rfl⟩ <;> exact ⟨rfl, rfl, rfl⟩
  obtain ⟨hpos, hwi, hvc⟩ := hu'
  obtain ⟨hpos', hwi', hvc'⟩ := hv'
  exact ⟨by rw [hq]; rfl, hq ▸ hpos'.trans hpos, hwi'.trans hwi, hvc'.trans hvc⟩

/-! Commands. -/

/-- A command that ends with no error has run to its end. -/
theorem runOp_completes {m : Op Unit} {s t : State} (h : runOp m s = .next t) (ht : t.status.isError = false) :
    m s = .ok () t := by
  rcases runOp_next.1 h with hok | ⟨r, i, u, -, rfl⟩
  · exact hok
  · cases ht

theorem execMbr_ok {k : BitVec 4} {r1 : Bool} {s t : State} (h : exec (.mbr k r1) s = .next t)
    (ht : t.status.isError = false) : ∃ u, meshReference k r1 s = .ok () u ∧ emitVertex u = .ok () t := by
  obtain ⟨_, u, hu, h⟩ := Op.bind_ok.1 (runOp_completes h ht)
  exact ⟨u, hu, h⟩

/-- Settles O42: the slot is WI - k in four bits, and the emission writes neither P nor WI. -/
theorem referenceResolvesSlot : Obligations.ReferenceResolvesSlot := by
  intro s t k r1 h ht
  obtain ⟨u, hu, hemit⟩ := execMbr_ok h ht
  obtain ⟨hsome, hpos, hwi, -⟩ := meshReference_frame hu
  obtain ⟨p, n, c, -, -, -, rfl⟩ := emitVertex_ok.1 hemit
  refine ⟨s.wi - k, ?_, hsome, hpos, hwi⟩
  have hk := k.isLt
  rw [BitVec.toNat_sub]
  omega

/-- The mesh-use flags, WI and the cache are the same. -/
structure SameVertexState (s t : State) : Prop where
  useMn : t.useMn = s.useMn
  useMc : t.useMc = s.useMc
  wi : t.wi = s.wi
  vc : t.vc = s.vc

theorem getBits_sameVertexState {n v : Nat} {s t : State} (h : getBits n s = .ok v t) : SameVertexState s t := by
  obtain ⟨p, w, c, rfl⟩ := getBits_ok h
  exact ⟨rfl, rfl, rfl, rfl⟩

theorem SameVertexState.trans {s t u : State} (h : SameVertexState s t) (h' : SameVertexState t u) :
    SameVertexState s u :=
  ⟨h'.useMn.trans h.useMn, h'.useMc.trans h.useMc, h'.wi.trans h.wi, h'.vc.trans h.vc⟩

/-- The commands that have to do with vertices: the others set the configuration, skip bits, or are reserved. -/
def aboutVertices : Instr → Bool
  | .vtx _ | .nrm _ | .col _ | .mbr _ _ | .nrmSub _ _ | .colSub _ _ => true
  | _ => false

/-- A command that has nothing to do with vertices leaves the flags, WI and the cache. -/
theorem exec_sameVertexState {i : Instr} {s t : State} (hi : aboutVertices i = false) (h : exec i s = .next t)
    (ht : t.status.isError = false) : SameVertexState s t := by
  cases i with
  | vtx | nrm | col | mbr | nrmSub | colSub => cases hi
  | sst x bn =>
    obtain ⟨v, u, hu, h⟩ := Op.bind_ok.1 (runOp_completes h ht)
    cases h
    exact (getBits_sameVertexState hu).trans ⟨rfl, rfl, rfl, rfl⟩
  | stb sel a6 =>
    cases hk : tableOfSelect sel with
    | none =>
      have hraise := runOp_completes h ht
      simp only [setTableCommand, hk] at hraise
      cases hraise
    | some k =>
      have hset := runOp_completes h ht
      simp only [setTableCommand, hk] at hset
      obtain ⟨v, u, hu, hset⟩ := Op.bind_ok.1 hset
      cases hset
      exact (getBits_sameVertexState hu).trans ⟨by simp, by simp, by simp, by simp⟩
  | eos => cases h; exact ⟨rfl, rfl, rfl, rfl⟩
  | skip8 =>
    obtain ⟨v, u, hu, h⟩ := Op.bind_ok.1 (runOp_completes h ht)
    cases h
    exact getBits_sameVertexState hu
  | vnop | pass =>
    obtain ⟨v, u, hu, h⟩ := Op.bind_ok.1 (runOp_completes h ht)
    obtain ⟨v', u', hu', h⟩ := Op.bind_ok.1 h
    cases h
    exact (getBits_sameVertexState hu).trans (getBits_sameVertexState hu')
  | reserved02 | reserved03 | reserved04 | reserved05 | reserved06 | reserved09 | reserved0A | reserved0B | reserved0C
  | reserved0D | reserved0E | reserved0F | stbReservedSelect a6 =>
    cases h
    cases ht

/-- Settles O48, command by command: an emission sets both flags, and a push leaves what its command cleared. -/
theorem meshUseFlagsTrackAttributes : Obligations.MeshUseFlagsTrackAttributes := by
  intro i s t h ht
  cases i
  case vtx =>
    obtain ⟨p, win, c, b, mbp, v, w, -, -, hemit⟩ := vertexStep_ok (runOp_completes h ht)
    exact emitVertex_flags hemit
  case mbr =>
    obtain ⟨u, -, hemit⟩ := execMbr_ok h ht
    exact emitVertex_flags hemit
  case nrm =>
    obtain ⟨r, hmn, hmc, -, -, hpush⟩ := setNormalCommand_pushed (runOp_completes h ht)
    exact ⟨hpush.flags.1.trans hmn, hpush.flags.2.trans hmc⟩
  case nrmSub =>
    obtain ⟨r, hmn, hmc, -, -, hpush⟩ := bundledNormal_pushed (runOp_completes h ht)
    exact ⟨hpush.flags.1.trans hmn, hpush.flags.2.trans hmc⟩
  case col =>
    obtain ⟨r, hmn, hmc, -, -, hpush⟩ := setColorCommand_pushed (runOp_completes h ht)
    exact ⟨hpush.flags.1.trans hmn, hpush.flags.2.trans hmc⟩
  case colSub =>
    obtain ⟨r, hmn, hmc, -, -, hpush⟩ := bundledColor_pushed (runOp_completes h ht)
    exact ⟨hpush.flags.1.trans hmn, hpush.flags.2.trans hmc⟩
  all_goals
    obtain ⟨hmn, hmc, -, -⟩ := exec_sameVertexState rfl h ht
    exact ⟨hmn, hmc⟩

/-- What a command that completes leaves of WI and the cache. -/
structure CacheFrame (i : Instr) (s t : State) : Prop where
  step : CacheStep s t
  wi : (∀ h6, i ≠ .vtx h6) → t.wi = s.wi
  vc : (∀ h6, i ≠ .vtx h6) → (∀ h6 mbp, i ≠ .nrmSub h6 mbp) → (∀ h6 mbp, i ≠ .colSub h6 mbp) → t.vc = s.vc

theorem cacheFrame_of_vc {i : Instr} {s t : State} (hwi : t.wi = s.wi) (hvc : t.vc = s.vc) : CacheFrame i s t :=
  ⟨(sameButSlotWi_of_eq hwi hvc).cacheStep, fun _ => hwi, fun _ _ _ => hvc⟩

theorem exec_cacheFrame {i : Instr} {s t : State} (h : exec i s = .next t) (ht : t.status.isError = false) :
    CacheFrame i s t := by
  cases i
  case vtx h6 =>
    exact ⟨vertexStep_cache (runOp_completes h ht), fun hi => absurd rfl (hi h6), fun hi => absurd rfl (hi h6)⟩
  case nrmSub h6 mbp =>
    have hsame := bundledNormal_cache (runOp_completes h ht)
    exact ⟨hsame.cacheStep, fun _ => hsame.wi, fun _ hi => absurd rfl (hi h6 mbp)⟩
  case colSub h6 mbp =>
    have hsame := bundledColor_cache (runOp_completes h ht)
    exact ⟨hsame.cacheStep, fun _ => hsame.wi, fun _ _ hi => absurd rfl (hi h6 mbp)⟩
  case nrm =>
    obtain ⟨r, -, -, hwi, hvc, hpush⟩ := setNormalCommand_pushed (runOp_completes h ht)
    exact cacheFrame_of_vc (hpush.cache.wi.trans hwi) (hpush.vc.trans hvc)
  case col =>
    obtain ⟨r, -, -, hwi, hvc, hpush⟩ := setColorCommand_pushed (runOp_completes h ht)
    exact cacheFrame_of_vc (hpush.cache.wi.trans hwi) (hpush.vc.trans hvc)
  case mbr =>
    obtain ⟨u, hu, hemit⟩ := execMbr_ok h ht
    obtain ⟨-, -, hwi, hvc⟩ := meshReference_frame hu
    obtain ⟨hwi', hvc'⟩ := emitVertex_cache hemit
    exact cacheFrame_of_vc (hwi'.trans hwi) (hvc'.trans hvc)
  all_goals
    obtain ⟨-, -, hwi, hvc⟩ := exec_sameVertexState rfl h ht
    exact cacheFrame_of_vc hwi hvc

/-- Settles O47, from the cache frame of every command. -/
theorem onlyVerticesWriteTheCache : Obligations.OnlyVerticesWriteTheCache := by
  intro i s t h ht
  obtain ⟨⟨hstep, hslot⟩, hwi, hvc⟩ := exec_cacheFrame h ht
  exact ⟨hwi, hvc, hslot, hstep⟩

end Sys2Proof.Machine
end

section
/-! Where a command raises: how far requests that can be read move the stream, and the errors of the position part, of a
normal, of a color and of a reference. An error keeps nothing of the extractor but the stream offset. -/

namespace Sys2Proof.Machine

/-! What an error keeps and records. -/

/-- An error raised in `t` is one raised in `s` after `n` more stream bits: the two states agree in CUR and in all that
an error keeps (60_exceptions.md rules R253, R254). -/
structure ErrorAfter (s : State) (n : Nat) (t : State) : Prop where
  bitpos : t.bitpos = s.bitpos + n
  cur : t.cur = s.cur
  kept : ∀ e, stopWith e t = stopWith e s

theorem ErrorAfter.trans {s t u : State} {n m : Nat} (h : ErrorAfter s n t) (h' : ErrorAfter t m u) :
    ErrorAfter s (n + m) u where
  bitpos := by rw [h'.bitpos, h.bitpos]; push_cast; omega
  cur := h'.cur.trans h.cur
  kept e := (h'.kept e).trans (h.kept e)

/-- Updates of registers that an error neither keeps nor records. -/
theorem ErrorAfter.of_eq {s t : State} (hbitpos : t.bitpos = s.bitpos) (hcur : t.cur = s.cur)
    (hkept : ∀ e, stopWith e t = stopWith e s) : ErrorAfter s 0 t :=
  ⟨hbitpos.trans (Int.add_zero _).symm, hcur, hkept⟩

/-- Between updates that an error does not see, a computation reads. -/
theorem ErrorAfter.between {s t u v : State} {n : Nat} (h : ErrorAfter s 0 t) (hn : ErrorAfter t n u)
    (h' : ErrorAfter u 0 v) : ErrorAfter s n v := by
  have htrans := (h.trans hn).trans h'
  rwa [Nat.zero_add, Nat.add_zero] at htrans

theorem ErrorAfter.enterError_congr {s t u : State} {n : Nat} (h : ErrorAfter s n t) (h' : ErrorAfter s n u) (r : Reason)
    (i : Info) : enterError r i t = enterError r i u := by
  unfold enterError
  rw [h.bitpos, h'.bitpos, h.cur, h'.cur, h.kept, h'.kept]

/-- `t` is `s` with the extractor moved on by `n` stream bits. -/
structure ReadTo (s : State) (n : Nat) (t : State) : Prop where
  frame : ∃ p w c, t = s.setBfx p w c
  bitpos : t.bitpos = s.bitpos + n

theorem ReadTo.refl (s : State) : ReadTo s 0 s := ⟨⟨s.p, s.w, s.c, rfl⟩, (Int.add_zero _).symm⟩

theorem ReadTo.trans {s t u : State} {n m : Nat} (h : ReadTo s n t) (h' : ReadTo t m u) : ReadTo s (n + m) u := by
  obtain ⟨⟨p, w, c, rfl⟩, hn⟩ := h
  obtain ⟨⟨p', w', c', rfl⟩, hm⟩ := h'
  exact ⟨⟨p', w', c', rfl⟩, by rw [hm, hn]; push_cast; omega⟩

theorem ReadTo.errorAfter {s t : State} {n : Nat} (h : ReadTo s n t) : ErrorAfter s n t := by
  obtain ⟨⟨p, w, c, rfl⟩, hn⟩ := h
  exact ⟨hn, rfl, fun _ => rfl⟩

theorem consume_readTo (s : State) (n : Nat) : ReadTo s n (consume s n) := by
  unfold consume
  split
  all_goals
    refine ⟨⟨_, _, _, rfl⟩, ?_⟩
    simp only [State.bitpos, State.setBfx_p, State.setBfx_start, State.setBfx_c]
    omega

/-- A command that raises after `n` bits ends in the error state of the stream moved on by `n` bits. -/
theorem runOp_raise_after {m : Op Unit} {s t : State} {n : Nat} {r : Reason} {i : Info}
    (h : m s = .error (.raise r i) t) (ht : ErrorAfter s n t) : runOp m s = .next (enterError r i (consume s n)) := by
  rw [runOp_raise h, ht.enterError_congr (consume_readTo s n).errorAfter]

theorem runOp_raise_here {m : Op Unit} {s t : State} {r : Reason} {i : Info} (h : m s = .error (.raise r i) t)
    (ht : ErrorAfter s 0 t) : runOp m s = .next (enterError r i s) := by
  rw [runOp_raise h, ht.enterError_congr (ReadTo.refl s).errorAfter]

/-! Requests that can be read. -/

theorem getBits_reads {n m : Nat} {s : State} (hn : n ≤ 32) (h : Readable s (n + m)) :
    ∃ v t, getBits n s = .ok v t ∧ ReadTo s n t ∧ Readable t m := by
  obtain ⟨hc, hend, hbits⟩ := h
  by_cases h0 : n = 0
  · subst h0
    exact ⟨0, s, rfl, .refl s, hc, hend, by omega⟩
  by_cases hw : n ≤ s.c
  · refine ⟨_, s.setBfx s.p (s.w <<< n) (s.c - n), getBits_window h0 hw, ⟨⟨_, _, _, rfl⟩, ?_⟩, ?_, hend, ?_⟩
    all_goals
      simp only [State.bitpos, State.setBfx_endAddr, State.setBfx_p, State.setBfx_start, State.setBfx_c]
      omega
  · have hr := refill_ok (s := s) (by omega) hend
    have hget : ∃ v w, getBits n s = .ok v (s.setBfx (s.p + 4) w (32 - (n - s.c))) := by
      by_cases hempty : s.c = 0
      · rw [getBits_empty h0 hn hempty hr rfl, hempty]
        exact ⟨_, _, rfl⟩
      · exact ⟨_, _, getBits_straddle hempty (by omega) hr⟩
    obtain ⟨v, w, hget⟩ := hget
    refine ⟨v, _, hget, ⟨⟨_, _, _, rfl⟩, ?_⟩, ?_, hend, ?_⟩
    all_goals
      simp only [State.bitpos, State.setBfx_endAddr, State.setBfx_p, State.setBfx_start, State.setBfx_c]
      omega

theorem fetchNext_reads {n m : Nat} {s : State} (hn : n ≤ 32) (h : Readable s (n + m)) :
    ∃ b t, fetchNext n s = .ok () (t.setNxt b) ∧ ReadTo s n t ∧ Readable t m := by
  obtain ⟨v, t, hg, hread, hrest⟩ := getBits_reads hn h
  exact ⟨_, t, fetchNext_ok.2 ⟨v, t, hg, rfl⟩, hread, hrest⟩

/-- Unpacking reads from the stream what the header does not hold of the fields. -/
theorem unpackFrom_reads {h6 : BitVec 6} {avail : Nat} {ws : List Nat} {m : Nat} {s : State} (hw : ∀ w ∈ ws, w ≤ 32)
    (h : Readable s (ws.sum - avail + m)) :
    ∃ fs t, unpackFrom h6 avail ws s = .ok fs t ∧ ReadTo s (ws.sum - avail) t ∧ Readable t m := by
  induction ws generalizing avail s with
  | nil => exact ⟨[], s, rfl, by simpa using ReadTo.refl s, by simpa using h⟩
  | cons w ws ih =>
    have hw' : ∀ w ∈ ws, w ≤ 32 := fun w' hmem => hw w' (List.mem_cons_of_mem w hmem)
    rw [List.sum_cons] at h ⊢
    unfold unpackFrom
    split
    · have hsum : w + ws.sum - avail = ws.sum - (avail - w) := by omega
      rw [hsum] at h ⊢
      obtain ⟨fs, t, hfs, hread, hrest⟩ := ih hw' h
      exact ⟨_, t, Op.bind_ok.2 ⟨fs, t, hfs, rfl⟩, hread, hrest⟩
    · have hsum : w + ws.sum - avail = (w - avail) + (ws.sum - 0) := by omega
      rw [hsum] at h ⊢
      rw [Nat.add_assoc] at h
      have hle := hw w List.mem_cons_self
      obtain ⟨v, t, hv, hread, hrest⟩ := getBits_reads (by omega) h
      obtain ⟨fs, u, hfs, hread', hrest'⟩ := ih hw' hrest
      exact ⟨_, u, Op.bind_ok.2 ⟨v, t, hv, Op.bind_ok.2 ⟨fs, u, hfs, rfl⟩⟩, hread.trans hread', hrest'⟩

theorem unpack_reads {h6 : BitVec 6} {t m : Nat} {ws : List Nat} {s : State} (hw : ∀ w ∈ ws, w ≤ 32)
    (h : Readable s (ws.sum - (6 - t) + m)) :
    ∃ fs u, unpack h6 t ws s = .ok fs u ∧ ReadTo s (ws.sum - (6 - t)) u ∧ Readable u m :=
  unpackFrom_reads hw h

/-- A legal entry has fields of at most 16 bits (10_state.md rule R23). -/
theorem fieldLength_le_of_legal {k : TableId} {e : Entry} (h : e.legal k = true) : e.fieldLength ≤ 16 := by
  unfold Entry.fieldLength
  cases k <;> simp [Entry.legal] at h <;> omega

theorem tagLength_le_of_legal {k : TableId} {e : Entry} (h : e.legal k = true) : e.tagLength ≤ 6 := by
  cases k <;> simp [Entry.legal] at h <;> omega

/-! The lookup. -/

theorem lookup_unset {k : TableId} {h6 : BitVec 6} {s : State} (h : s.entryAt k h6 = none) :
    lookup k h6 s = .error (.raise .unsetTableEntry (.slot k h6)) s := by
  rw [lookup_eq, h]

theorem lookup_negative {k : TableId} {h6 : BitVec 6} {s : State} {e : Entry} (h : s.entryAt k h6 = some e)
    (hl : e.dataLength < e.rightShift) : lookup k h6 s = .error (.raise .negativeLength (.slot k h6)) s := by
  rw [lookup_eq, h]
  exact if_pos hl

theorem lookup_selects {k : TableId} {h6 : BitVec 6} {s : State} {e : Entry} (h : Selects s k h6 e) :
    lookup k h6 s = .ok e s := by
  obtain ⟨he, -, hle⟩ := h
  exact lookup_ok.2 ⟨he, hle, rfl⟩

/-! Normals. -/

theorem clearUseMn_errorAfter (s : State) : ErrorAfter s 0 s.clearUseMn := .of_eq rfl rfl fun _ => rfl

theorem setNormalCommand_lookup_error {h6 : BitVec 6} {mbp : Bool} {s t : State} {e : Stop}
    (h : lookup .normal h6 s.clearUseMn = .error e t) : setNormalCommand h6 mbp s = .error e t :=
  Op.bind_error.2 (.inr ⟨(), s.clearUseMn, rfl, Op.bind_error.2 (.inl h)⟩)

/-- A relative normal with N undefined stops after its body. -/
theorem setNormalCommand_undefined {h6 : BitVec 6} {mbp : Bool} {e : Entry} {s : State} (hsel : Selects s .normal h6 e)
    (hrel : e.absolute = false) (hn : s.normal = none) (hread : Readable s (2 * e.fieldLength - (6 - e.tagLength))) :
    ∃ t, ErrorAfter s (2 * e.fieldLength - (6 - e.tagLength)) t ∧
      setNormalCommand h6 mbp s = .error (.raise .undefinedRead .nothing) t := by
  have hlen := fieldLength_le_of_legal hsel.2.1
  have hsum : [e.fieldLength, e.fieldLength].sum = 2 * e.fieldLength := by simp; omega
  obtain ⟨fs, t, hfs, hto, -⟩ := unpack_reads (h6 := h6) (t := e.tagLength) (m := 0) (s := s.clearUseMn)
    (ws := [e.fieldLength, e.fieldLength]) (by simp; omega) (by rw [hsum]; exact hread)
  rw [hsum] at hto
  refine ⟨t, (clearUseMn_errorAfter s).between hto.errorAfter (.of_eq rfl rfl fun _ => rfl), ?_⟩
  have hnone : t.normal = none := by
    obtain ⟨⟨p, w, c, rfl⟩, -⟩ := hto
    exact hn
  have hrelative : relativeNormal h6 e s.clearUseMn = .error (.raise .undefinedRead .nothing) t := by
    refine Op.bind_error.2 (.inr ⟨fs, t, hfs, Op.bind_error.2 (.inr ⟨t, t, rfl, Op.bind_error.2 (.inl ?_)⟩)⟩)
    rw [hnone]
    rfl
  refine Op.bind_error.2 (.inr ⟨(), s.clearUseMn, rfl, Op.bind_error.2 (.inr ⟨e, _, lookup_selects hsel, ?_⟩)⟩)
  simp only [hrel, Bool.false_eq_true, if_false]
  exact Op.bind_error.2 (.inl hrelative)

/-! Colors. -/

theorem clearUseMc_errorAfter (s : State) : ErrorAfter s 0 s.clearUseMc := .of_eq rfl rfl fun _ => rfl

theorem setColorCommand_lookup_error {h6 : BitVec 6} {mbp : Bool} {s t : State} {e : Stop}
    (h : lookup .color h6 s.clearUseMc = .error e t) : setColorCommand h6 mbp s = .error e t :=
  Op.bind_error.2 (.inr ⟨(), s.clearUseMc, rfl, Op.bind_error.2 (.inl h)⟩)

/-- A relative accumulation needs C, and A when BA = 1. -/
theorem accumulateColor_undefined {e : Entry} {fs : List Nat} {s : State} (hrel : e.absolute = false)
    (h : s.color = none ∨ (s.ba = true ∧ s.alpha = none)) :
    ∃ t, ErrorAfter s 0 t ∧ accumulateColor e fs s = .error (.raise .undefinedRead .nothing) t := by
  cases hc : s.color with
  | none => exact ⟨s, (ReadTo.refl s).errorAfter, by simp [accumulateColor, Op.bind_eq, hrel, hc]⟩
  | some c =>
    obtain hc' | ⟨hba, halpha⟩ := h
    · rw [hc] at hc'; cases hc'
    · refine ⟨s.setColor (c.add ⟨channelValue e fs 0, channelValue e fs 1, channelValue e fs 2⟩),
        .of_eq rfl rfl fun _ => rfl, ?_⟩
      simp [accumulateColor, Op.bind_eq, hrel, hc, hba, halpha]

/-- A relative color with C, or with BA = 1 with A, undefined stops after its body. -/
theorem setColorCommand_undefined {h6 : BitVec 6} {mbp : Bool} {e : Entry} {s : State} (hsel : Selects s .color h6 e)
    (hrel : e.absolute = false) (hundef : s.color = none ∨ (s.ba = true ∧ s.alpha = none))
    (hread : Readable s ((if s.ba then 4 else 3) * e.fieldLength - (6 - e.tagLength))) :
    ∃ t, ErrorAfter s ((if s.ba then 4 else 3) * e.fieldLength - (6 - e.tagLength)) t ∧
      setColorCommand h6 mbp s = .error (.raise .undefinedRead .nothing) t := by
  have hlen := fieldLength_le_of_legal hsel.2.1
  have hsum : (List.replicate (channelCount s.ba) e.fieldLength).sum = (if s.ba then 4 else 3) * e.fieldLength := by
    simp [channelCount]
  obtain ⟨fs, u, hfs, hto, -⟩ := unpack_reads (h6 := h6) (t := e.tagLength) (m := 0) (s := s.clearUseMc)
    (ws := List.replicate (channelCount s.ba) e.fieldLength) (fun w hw => by rw [List.eq_of_mem_replicate hw]; omega)
    (by rw [hsum]; exact hread)
  rw [hsum] at hto
  have hundef' : u.color = none ∨ (u.ba = true ∧ u.alpha = none) := by
    obtain ⟨⟨p, w, c, rfl⟩, -⟩ := hto
    exact hundef
  obtain ⟨t, hafter, hacc⟩ := accumulateColor_undefined (fs := fs) hrel hundef'
  refine ⟨t, (clearUseMc_errorAfter s).between hto.errorAfter hafter, ?_⟩
  refine Op.bind_error.2 (.inr ⟨(), s.clearUseMc, rfl, Op.bind_error.2 (.inr ⟨e, _, lookup_selects hsel, ?_⟩)⟩)
  refine Op.bind_error.2 (.inr ⟨_, _, rfl, Op.bind_error.2 (.inr ⟨fs, u, hfs, ?_⟩)⟩)
  exact Op.bind_error.2 (.inl hacc)

/-- Settles O36: the lookup raises before a bit is read, the missing accumulator after the body. -/
theorem attributeErrorsRaise : Obligations.AttributeErrorsRaise := by
  intro s h6
  have hnrm := clearUseMn_errorAfter s
  have hcol := clearUseMc_errorAfter s
  refine ⟨fun hunset => ?_, fun e he hneg => ?_, fun e hsel hrel hundef hread => ?_, fun hunset => ?_,
    fun e he hneg => ?_, fun e hsel hrel hundef hread => ?_⟩
  · exact runOp_raise_here (setNormalCommand_lookup_error (lookup_unset hunset)) hnrm
  · exact runOp_raise_here (setNormalCommand_lookup_error (lookup_negative he hneg)) hnrm
  · obtain ⟨t, hafter, herr⟩ := setNormalCommand_undefined hsel hrel hundef hread
    exact runOp_raise_after herr hafter
  · exact runOp_raise_here (setColorCommand_lookup_error (lookup_unset hunset)) hcol
  · exact runOp_raise_here (setColorCommand_lookup_error (lookup_negative he hneg)) hcol
  · obtain ⟨t, hafter, herr⟩ := setColorCommand_undefined hsel hrel hundef hread
    exact runOp_raise_after herr hafter

end Sys2Proof.Machine
end

section
/-! The errors of a vertex's position part and of a mesh buffer reference. -/

namespace Sys2Proof.Machine

/-! Vertices. -/

theorem clearMeshUse_errorAfter (s : State) : ErrorAfter s 0 s.clearMeshUse := .of_eq rfl rfl fun _ => rfl

theorem setNxt_errorAfter (s : State) (b : Byte) : ErrorAfter s 0 (s.setNxt b) := .of_eq rfl rfl fun _ => rfl

theorem setRep_errorAfter (s : State) (v : BitVec 2) : ErrorAfter s 0 (s.setRep v) := .of_eq rfl rfl fun _ => rfl

theorem setPos_errorAfter (s : State) (v : Position) : ErrorAfter s 0 (s.setPos v) := .of_eq rfl rfl fun _ => rfl

theorem vertexPosition_lookup_error {h6 : BitVec 6} {s t : State} {e : Stop}
    (h : lookup .position h6 s.clearMeshUse = .error e t) : vertexPosition h6 s = .error e t :=
  Op.bind_error.2 (.inr ⟨(), s.clearMeshUse, rfl, Op.bind_error.2 (.inl h)⟩)

/-- More than three header bits are left exactly where tag and fields take fewer than three (30_encoding.md rule R81). -/
theorem three_lt_spareBits {e : Entry} : 3 < spareBits e ↔ e.tagLength + 3 * e.fieldLength < 3 := by
  unfold spareBits
  omega

theorem vertexPosition_overfit {h6 : BitVec 6} {e : Entry} {s : State} (hsel : Selects s .position h6 e)
    (hfit : e.tagLength + 3 * e.fieldLength < 3) :
    vertexPosition h6 s = .error (.raise .positionOverfit .nothing) s.clearMeshUse := by
  refine Op.bind_error.2 (.inr ⟨(), s.clearMeshUse, rfl, Op.bind_error.2 (.inr ⟨e, _, lookup_selects hsel, ?_⟩)⟩)
  rw [if_pos (three_lt_spareBits.2 hfit)]
  rfl

theorem accumulatePosition_undefined {e : Entry} {fs : List Nat} {s : State} (hrel : e.absolute = false)
    (h : s.pos = none) : accumulatePosition e fs s = .error (.raise .undefinedRead .nothing) s := by
  simp [accumulatePosition, Op.bind_eq, hrel, h]

/-- A relative position with P undefined stops after its body. -/
theorem vertexPosition_undefined {h6 : BitVec 6} {e : Entry} {s : State} (hsel : Selects s .position h6 e)
    (hfit : 3 ≤ e.tagLength + 3 * e.fieldLength) (hrel : e.absolute = false) (hpos : s.pos = none)
    (hread : Readable s (e.tagLength + 3 * e.fieldLength - 3)) :
    ∃ t, ErrorAfter s (e.tagLength + 3 * e.fieldLength - 3) t ∧
      vertexPosition h6 s = .error (.raise .undefinedRead .nothing) t := by
  have hlen := fieldLength_le_of_legal hsel.2.1
  have htag := tagLength_le_of_legal hsel.2.1
  have hsum : [e.fieldLength, e.fieldLength, e.fieldLength].sum = 3 * e.fieldLength := by simp; omega
  have hbits : e.tagLength + 3 * e.fieldLength - 3 =
      (3 - (spareBits e).toNat) + (3 * e.fieldLength - (6 - e.tagLength)) := by
    unfold spareBits
    omega
  rw [hbits] at hread ⊢
  obtain ⟨b, u, hb, hu, hread'⟩ := getBits_reads (s := s.clearMeshUse) (by omega) hread
  obtain ⟨rm, hrm⟩ : ∃ rm, replaceAndPush h6 e s.clearMeshUse = .ok rm u := ⟨_, Op.bind_ok.2 ⟨b, u, hb, rfl⟩⟩
  obtain ⟨fs, t, hfs, ht, -⟩ := unpack_reads (h6 := h6) (t := e.tagLength) (m := 0)
    (s := u.setRep (rm.extractLsb' 1 2)) (ws := [e.fieldLength, e.fieldLength, e.fieldLength]) (by simp; omega)
    (by rw [hsum]; exact hread')
  rw [hsum] at ht
  have hnone : t.pos = none := by
    obtain ⟨⟨p, w, c, rfl⟩, -⟩ := hu
    obtain ⟨⟨p', w', c', rfl⟩, -⟩ := ht
    exact hpos
  have hafter := (clearMeshUse_errorAfter s).between hu.errorAfter (setRep_errorAfter u (rm.extractLsb' 1 2))
  refine ⟨t, hafter.trans ht.errorAfter, ?_⟩
  refine Op.bind_error.2 (.inr ⟨(), s.clearMeshUse, rfl, Op.bind_error.2 (.inr ⟨e, _, lookup_selects hsel, ?_⟩)⟩)
  rw [if_neg (fun h => absurd (three_lt_spareBits.1 h) (by omega))]
  refine Op.bind_error.2 (.inr ⟨rm, u, hrm, Op.bind_error.2 (.inr ⟨(), _, rfl, ?_⟩)⟩)
  refine Op.bind_error.2 (.inr ⟨fs, t, hfs, Op.bind_error.2 (.inl ?_)⟩)
  exact accumulatePosition_undefined hrel hnone

/-- A vertex whose position part stops after its lookahead fetch stops there, with bundled parts or without. -/
theorem vertexStep_position_error {h6 : BitVec 6} {s u t : State} {e : Stop}
    (hf : fetchNext (if s.bn = true ∨ s.bc = true then 6 else 8) s = .ok () u) (hp : vertexPosition h6 u = .error e t) :
    vertexStep h6 s = .error e t := by
  refine Op.bind_error.2 (.inr ⟨s, s, rfl, ?_⟩)
  cases hbn : s.bn <;> cases hbc : s.bc
  all_goals
    simp [hbn, hbc] at hf
    exact Op.bind_error.2 (.inr ⟨(), u, hf, Op.bind_error.2 (.inl hp)⟩)

/-- The lookahead fetch of a vertex leaves the table entries and P. -/
theorem fetchNext_before_body {w n : Nat} {s : State} (hw : w ≤ 32) (h : Readable s (w + n)) :
    ∃ u, fetchNext w s = .ok () u ∧ ErrorAfter s w u ∧ Readable u n ∧ (∀ k h6, u.entryAt k h6 = s.entryAt k h6) ∧
      u.pos = s.pos := by
  obtain ⟨b, u, hf, hu, hrest⟩ := fetchNext_reads hw h
  refine ⟨u.setNxt b, hf, hu.errorAfter.trans (setNxt_errorAfter u b), hrest, ?_⟩
  obtain ⟨⟨p, win, c, rfl⟩, -⟩ := hu
  exact ⟨fun k h6 => by cases k <;> rfl, rfl⟩

/-- Settles O28: the errors of the position part, each behind the lookahead fetch. -/
theorem vertexErrorsRaise : Obligations.VertexErrorsRaise := by
  intro s h6 hread w
  have hw : w ≤ 32 := by
    unfold w
    split <;> omega
  obtain ⟨u, hf, hu, -, hentry, -⟩ := fetchNext_before_body (n := 0) hw hread
  have hclear := hu.trans (clearMeshUse_errorAfter u)
  refine ⟨fun hunset => ?_, fun e he hneg => ?_, fun e ⟨he, hlegal, hle⟩ hfit => ?_,
    fun e ⟨he, hlegal, hle⟩ hfit hrel hpos hread' => ?_⟩
  · have hlookup := lookup_unset (k := .position) (h6 := h6) (s := u.clearMeshUse) ((hentry .position h6).trans hunset)
    exact runOp_raise_after (vertexStep_position_error hf (vertexPosition_lookup_error hlookup)) hclear
  · have hlookup := lookup_negative (k := .position) (h6 := h6) (s := u.clearMeshUse) ((hentry .position h6).trans he) hneg
    exact runOp_raise_after (vertexStep_position_error hf (vertexPosition_lookup_error hlookup)) hclear
  · have hover := vertexPosition_overfit (s := u) ⟨(hentry .position h6).trans he, hlegal, hle⟩ hfit
    exact runOp_raise_after (vertexStep_position_error hf hover) hclear
  · obtain ⟨u, hf, hu, hbody, hentry, hpos'⟩ := fetchNext_before_body hw hread'
    obtain ⟨t, ht, herr⟩ := vertexPosition_undefined (s := u) ⟨(hentry .position h6).trans he, hlegal, hle⟩ hfit hrel
      (hpos'.trans hpos) hbody
    exact runOp_raise_after (vertexStep_position_error hf herr) (hu.trans ht)

/-! Mesh buffer references. -/

/-- What the reuse of a normal leaves: the slot's normal where it is taken, else N. -/
theorem reuseNormal_normal {slot : Slot} {s t : State} {x : Unit} (h : reuseNormal slot s = .ok x t) (hbn : s.bn = true) :
    t.normal = if s.useMn then slot.normal else s.normal := by
  rcases reuseNormal_ok.1 h with ⟨huse, n, hn, rfl⟩ | ⟨hkeep, rfl⟩
  · rw [hbn, Bool.true_and] at huse
    rw [if_pos huse, hn]
    rfl
  · rw [hbn, Bool.true_and] at hkeep
    rw [hkeep]
    rfl

/-- What the reuse of a color leaves: the slot's color where it is taken, else C. -/
theorem reuseColor_color {slot : Slot} {s t : State} {x : Unit} (h : reuseColor slot s = .ok x t) (hbc : s.bc = true) :
    t.color = if s.useMc then slot.color else s.color := by
  rcases reuseColor_ok.1 h with ⟨huse, c, hc, ⟨-, a, -, rfl⟩ | ⟨-, rfl⟩⟩ | ⟨hkeep, rfl⟩
  · rw [hbc, Bool.true_and] at huse
    rw [if_pos huse, hc]
    rfl
  · rw [hbc, Bool.true_and] at huse
    rw [if_pos huse, hc]
    rfl
  · rw [hbc, Bool.true_and] at hkeep
    rw [hkeep]
    rfl

/-- What the reuse of a color leaves with BA = 1: the slot's alpha where it is taken, else A. -/
theorem reuseColor_alpha {slot : Slot} {s t : State} {x : Unit} (h : reuseColor slot s = .ok x t) (hbc : s.bc = true)
    (hba : s.ba = true) : t.alpha = if s.useMc then slot.alpha else s.alpha := by
  rcases reuseColor_ok.1 h with ⟨huse, c, -, ⟨-, a, ha, rfl⟩ | ⟨hno, -⟩⟩ | ⟨hkeep, rfl⟩
  · rw [hbc, Bool.true_and] at huse
    rw [if_pos huse, ha]
    rfl
  · rw [hba] at hno; cases hno
  · rw [hbc, Bool.true_and] at hkeep
    rw [hkeep]
    rfl

theorem reuseNormal_errorAfter {slot : Slot} {s t : State} {x : Unit} (h : reuseNormal slot s = .ok x t) :
    ErrorAfter s 0 t := by
  rcases reuseNormal_eq h with rfl | ⟨n, rfl⟩ <;> exact .of_eq rfl rfl fun _ => rfl

/-- The reuse of a color writes C and A at most. -/
theorem reuseColor_frame {slot : Slot} {s t : State} {x : Unit} (h : reuseColor slot s = .ok x t) :
    t.normal = s.normal ∧ ErrorAfter s 0 t := by
  rcases reuseColor_ok.1 h with ⟨-, c, -, ⟨-, a, -, rfl⟩ | ⟨-, rfl⟩⟩ | ⟨-, rfl⟩ <;>
    exact ⟨rfl, .of_eq rfl rfl fun _ => rfl⟩

theorem reuseNormal_error {slot : Slot} {s t : State} {e : Stop} (h : reuseNormal slot s = .error e t) :
    e = .raise .undefinedRead .nothing ∧ t = s := by
  rcases Op.bind_error.1 h with h | ⟨_, _, hs, h⟩
  · cases h
  cases hs
  split at h
  · rcases Op.bind_error.1 h with h | ⟨_, _, -, h⟩
    · exact (need_error.1 h).2
    · cases h
  · cases h

theorem reuseColor_error {slot : Slot} {s t : State} {e : Stop} (h : reuseColor slot s = .error e t) :
    e = .raise .undefinedRead .nothing ∧ ErrorAfter s 0 t := by
  rcases Op.bind_error.1 h with h | ⟨_, _, hs, h⟩
  · cases h
  cases hs
  split at h
  · rcases Op.bind_error.1 h with h | ⟨c, _, hc, h⟩
    · obtain ⟨-, rfl, rfl⟩ := need_error.1 h
      exact ⟨rfl, (ReadTo.refl _).errorAfter⟩
    obtain ⟨-, rfl⟩ := need_ok.1 hc
    rcases Op.bind_error.1 h with h | ⟨_, _, hs, h⟩
    · cases h
    cases hs
    split at h
    · rcases Op.bind_error.1 h with h | ⟨_, _, -, h⟩
      · obtain ⟨-, rfl, rfl⟩ := need_error.1 h
        exact ⟨rfl, .of_eq rfl rfl fun _ => rfl⟩
      · cases h
    · cases h
  · cases h

/-- A reference that stops after its body raises UNDEFINED_READ there. -/
theorem meshReference_error {k : BitVec 4} {r1 : Bool} {s u t : State} {e : Stop} {r0 : Nat}
    (h : meshReference k r1 s = .error e t) (hg : getBits 1 s = .ok r0 u) :
    e = .raise .undefinedRead .nothing ∧ ErrorAfter u 0 t := by
  rcases Op.bind_error.1 h with h | ⟨_, _, hg', h⟩
  · rw [hg] at h; cases h
  rw [hg] at hg'
  cases hg'
  rcases Op.bind_error.1 h with h | ⟨_, _, hs, h⟩
  · cases h
  cases hs
  rcases Op.bind_error.1 h with h | ⟨_, _, hs, h⟩
  · cases h
  cases hs
  rcases Op.bind_error.1 h with h | ⟨q, _, hq, h⟩
  · obtain ⟨-, rfl, rfl⟩ := need_error.1 h
    exact ⟨rfl, setRep_errorAfter u _⟩
  obtain ⟨-, rfl⟩ := need_ok.1 hq
  rcases Op.bind_error.1 h with h | ⟨_, _, hs, h⟩
  · cases h
  cases hs
  have hset : ∀ r, ErrorAfter u 0 ((u.setRep r).setPos q) := fun r =>
    (setRep_errorAfter u r).trans (setPos_errorAfter _ q)
  rcases Op.bind_error.1 h with h | ⟨_, v, hv, h⟩
  · obtain ⟨rfl, rfl⟩ := reuseNormal_error h
    exact ⟨rfl, hset _⟩
  have hafter : ErrorAfter u 0 v := (hset _).trans (reuseNormal_errorAfter hv)
  rcases Op.bind_error.1 h with h | ⟨_, _, -, h⟩
  · obtain ⟨rfl, hafter'⟩ := reuseColor_error h
    exact ⟨rfl, hafter.trans hafter'⟩
  · cases h

/-- What a reference that completes hands to the emission: the parts of its slot where it takes them. -/
theorem meshReference_parts {k : BitVec 4} {r1 : Bool} {s u t : State} {r0 : Nat} {x : Unit}
    (h : meshReference k r1 s = .ok x t) (hg : getBits 1 s = .ok r0 u) :
    (s.slot (s.wi - k)).pos ≠ none ∧
    (s.bn = true → t.normal = if s.useMn then (s.slot (s.wi - k)).normal else s.normal) ∧
    (s.bc = true → t.color = if s.useMc then (s.slot (s.wi - k)).color else s.color) ∧
    (s.bc = true → s.ba = true → t.alpha = if s.useMc then (s.slot (s.wi - k)).alpha else s.alpha) ∧
    ErrorAfter u 0 t := by
  obtain ⟨r0', p, w, c, q, v, v', hg', hq, hv, hv', rfl⟩ := meshReference_ok h
  rw [hg] at hg'
  cases hg'
  obtain ⟨hnormal, hafter'⟩ := reuseColor_frame hv'
  have hnormal' := reuseNormal_normal hv
  refine ⟨by rw [hq]; simp, fun hbn => hnormal.trans (hnormal' hbn), ?_⟩
  have hafter : ErrorAfter (s.setBfx p w c) 0 v'.clearMeshUse :=
    (setRep_errorAfter _ _).trans ((setPos_errorAfter _ q).trans
      ((reuseNormal_errorAfter hv).trans (hafter'.trans (clearMeshUse_errorAfter v'))))
  have hcolor := reuseColor_color hv'
  have halpha := reuseColor_alpha hv'
  rcases reuseNormal_eq hv with rfl | ⟨n, rfl⟩ <;> exact ⟨hcolor, halpha, hafter⟩

/-- A vertex that is emitted has every part that BN, BC and BA ask for. -/
theorem emitVertex_defined {s t : State} {x : Unit} (h : emitVertex s = .ok x t) :
    (s.bn = true → s.normal ≠ none) ∧ (s.bc = true → s.color ≠ none) ∧
      (s.bc = true → s.ba = true → s.alpha ≠ none) := by
  obtain ⟨p, n, c, -, hn, hc, -⟩ := emitVertex_ok.1 h
  have hcolor : s.bc = true → ∃ v, colorOut s = .ok v s := by
    rcases (vertexColor_ok.1 hc).2 with ⟨-, v, hv, -⟩ | ⟨hbc, -⟩
    · exact fun _ => ⟨v, hv⟩
    · exact fun h => by rw [hbc] at h; cases h
  refine ⟨fun hbn => ?_, fun hbc => ?_, fun hbc hba => ?_⟩
  · rcases (vertexNormal_ok.1 hn).2 with ⟨-, n', hn', -⟩ | ⟨hno, -⟩
    · rw [hn']; simp
    · rw [hbn] at hno; cases hno
  · obtain ⟨v, hv⟩ := hcolor hbc
    obtain ⟨-, c', hc', -⟩ := colorOut_ok.1 hv
    rw [hc']; simp
  · obtain ⟨v, hv⟩ := hcolor hbc
    obtain ⟨-, c', -, ⟨-, a, ha, -⟩ | ⟨hno, -⟩⟩ := colorOut_ok.1 hv
    · rw [ha]; simp
    · rw [hba] at hno; cases hno

/-- Settles O43: a reference that completed would have found every part it asks for. -/
theorem meshReferenceErrorsRaise : Obligations.MeshReferenceErrorsRaise := by
  intro s k r1 hread j hmissing
  obtain ⟨r0, u, hg, hu, -⟩ := getBits_reads (m := 0) (by omega) hread
  have herror : ∃ t, ErrorAfter u 0 t ∧
      (do meshReference k r1; emitVertex : Op Unit) s = .error (.raise .undefinedRead .nothing) t := by
    cases hm : meshReference k r1 s with
    | error e t =>
      obtain ⟨rfl, ht⟩ := meshReference_error hm hg
      exact ⟨t, ht, Op.bind_error.2 (.inl hm)⟩
    | ok x v =>
      obtain ⟨hpos, hnormal, hcolor, halpha, hv⟩ := meshReference_parts hm hg
      obtain ⟨-, hbn, hbc, hba⟩ := ((meshReference_confined k r1 s).ok hm).sameConfiguration
      cases he : emitVertex v with
      | error e t =>
        obtain ⟨rfl, rfl⟩ := emitVertex_error he
        exact ⟨_, hv, Op.bind_error.2 (.inr ⟨x, _, hm, he⟩)⟩
      | ok y t =>
        exfalso
        obtain ⟨hnormal', hcolor', halpha'⟩ := emitVertex_defined he
        rw [hbn] at hnormal'
        rw [hbc] at hcolor' halpha'
        rw [hba] at halpha'
        rcases hmissing with h | ⟨h1, h⟩ | ⟨h1, h⟩ | ⟨h1, h2, h⟩
        · exact hpos h
        · exact hnormal' h1 ((hnormal h1).trans h)
        · exact hcolor' h1 ((hcolor h1).trans h)
        · exact halpha' h1 h2 ((halpha h1 h2).trans h)
  obtain ⟨t, ht, herr⟩ := herror
  exact runOp_raise_after herr (hu.errorAfter.trans ht)

end Sys2Proof.Machine
end

section
/-! The bit-field extractor against the unread stream (20_memory.md rules R53 to R57): taking bits moves along the stream
that `bitAt` gives, and the window's top bits are the next of them. -/

namespace Sys2Proof.Machine

/-! Bit strings. -/

theorem ofBits_append (xs ys : List Bool) : ofBits (xs ++ ys) = ofBits xs * 2 ^ ys.length + ofBits ys := by
  induction ys using List.reverseRecOn with
  | nil => simp [ofBits]
  | append_singleton ys b ih =>
    rw [← List.append_assoc]
    simp only [ofBits, List.foldl_append, List.foldl_cons, List.foldl_nil, List.length_append, List.length_singleton] at ih ⊢
    rw [ih, pow_succ]
    ring

theorem bitsOf_succ (n v : Nat) : bitsOf (n + 1) v = bitsOf n (v / 2) ++ [v.testBit 0] := by
  unfold bitsOf
  rw [List.range_succ, List.map_append]
  congr 1
  · refine List.map_congr_left fun i hi => ?_
    rw [List.mem_range] at hi
    rw [show n + 1 - 1 - i = (n - 1 - i) + 1 by omega, Nat.testBit_succ]
  · simp

/-- The number of the `n` low bits of `v` is `v`, where it has no other bits. -/
theorem ofBits_bitsOf {n v : Nat} (h : v < 2 ^ n) : ofBits (bitsOf n v) = v := by
  induction n generalizing v with
  | zero => simp at h; subst h; rfl
  | succ n ih =>
    rw [bitsOf_succ, ofBits_append, ih (by omega)]
    cases hb : v.testBit 0 <;> simp [ofBits] at hb ⊢ <;> omega

/-- Written with its length, the number of a bit string is that bit string. -/
theorem bitsOf_ofBits (bs : List Bool) : bitsOf bs.length (ofBits bs) = bs := by
  induction bs using List.reverseRecOn with
  | nil => rfl
  | append_singleton bs b ih =>
    have hvalue : ofBits (bs ++ [b]) = 2 * ofBits bs + b.toNat := by simp [ofBits]
    rw [List.length_append, List.length_singleton, bitsOf_succ, hvalue]
    have hhalf : (2 * ofBits bs + b.toNat) / 2 = ofBits bs := by have := b.toNat_le; omega
    rw [hhalf, ih]
    cases b <;> simp

/-! The window. -/

/-- The `n` bits at the top of a window, as `GetBits` shifts them out. -/
theorem map_getMsbD_window (w : Window) {n : Nat} (h : n ≤ 32) :
    (List.range n).map w.getMsbD = bitsOf n (w >>> (32 - n)).toNat := by
  refine List.map_congr_left fun k hk => ?_
  rw [List.mem_range] at hk
  rw [BitVec.testBit_toNat, BitVec.getLsbD_ushiftRight, BitVec.getMsbD, show 32 - n + (n - 1 - k) = 32 - 1 - k by omega]
  simp
  omega

theorem ofBits_window (w : Window) {n : Nat} (h : n ≤ 32) :
    ofBits ((List.range n).map w.getMsbD) = (w >>> (32 - n)).toNat := by
  rw [map_getMsbD_window w h, ofBits_bitsOf]
  rw [BitVec.toNat_ushiftRight, Nat.shiftRight_eq_div_pow]
  have hw : w.toNat < 2 ^ n * 2 ^ (32 - n) := by
    rw [← pow_add, Nat.add_sub_cancel' h]
    exact w.isLt
  exact Nat.div_lt_of_lt_mul (by rwa [Nat.mul_comm] at hw)

/-- The bits of a loaded word are those of its four bytes, bit 7 first (20_memory.md rule R53). -/
theorem getMsbD_wordAt (m : Memory) (a : Nat) {j : Nat} (h : j < 32) :
    (wordAt m a).getMsbD j = (m.read (a + j / 8)).getMsbD (j % 8) := by
  unfold wordAt
  simp only [BitVec.getMsbD_append]
  rcases (by omega : j / 8 = 0 ∨ j / 8 = 1 ∨ j / 8 = 2 ∨ j / 8 = 3) with hq | hq | hq | hq
  all_goals
    simp (disch := omega) only [hq, if_pos, if_neg]
    congr 1
    omega

/-! The unread stream after bits were taken. -/

theorem bitAt_of_lt {s : State} {i : Nat} (h : i < s.c) : bitAt s i = s.w.getMsbD i := if_pos h

theorem bitAt_of_le {s : State} {i : Nat} (h : s.c ≤ i) :
    bitAt s i = (s.buf.read (s.p + (i - s.c) / 8)).getMsbD ((i - s.c) % 8) := if_neg (by omega)

theorem consume_of_le {s : State} {n : Nat} (h : n ≤ s.c) : consume s n = s.setBfx s.p (s.w <<< n) (s.c - n) := if_pos h

/-- Where the window does not hold the bits, `k` whole words and `used` bits of the next one are taken. -/
theorem consume_refilled (s : State) (k : Nat) {used : Nat} (h : 1 ≤ used) (h' : used ≤ 32) :
    consume s (s.c + 32 * k + used) =
      s.setBfx (s.p + 4 * (k + 1)) (wordAt s.buf (s.p + 4 * k) <<< used) (32 - used) := by
  have hwords : (s.c + 32 * k + used - s.c + 31) / 32 = k + 1 := by omega
  have hused : s.c + 32 * k + used - s.c - 32 * k = used := by omega
  unfold consume
  rw [if_neg (by omega)]
  simp only [hwords, Nat.add_sub_cancel, hused]

/-- The two ways in which bits are taken. -/
theorem window_or_refills (s : State) (n : Nat) :
    n ≤ s.c ∨ ∃ k used, 1 ≤ used ∧ used ≤ 32 ∧ n = s.c + 32 * k + used := by
  by_cases hn : n ≤ s.c
  · exact .inl hn
  · exact .inr ⟨(n - s.c - 1) / 32, (n - s.c - 1) % 32 + 1, by omega, by omega, by omega⟩

@[simp] theorem consume_zero (s : State) : consume s 0 = s := by
  rw [consume_of_le (Nat.zero_le _), BitVec.shiftLeft_zero]
  rfl

/-- Taking bits in two portions is taking them at once. -/
theorem consume_add (s : State) (n m : Nat) : consume (consume s n) m = consume s (n + m) := by
  rcases window_or_refills s n with hn | ⟨k, used, hlow, hhigh, rfl⟩
  · rw [consume_of_le hn]
    rcases window_or_refills (s.setBfx s.p (s.w <<< n) (s.c - n)) m with hm | ⟨k, used, hlow, hhigh, hm⟩
    · rw [consume_of_le hm]
      rw [State.setBfx_c] at hm
      rw [consume_of_le (by omega), BitVec.shiftLeft_add, Nat.sub_add_eq]
      rfl
    · rw [hm, consume_refilled _ k hlow hhigh, State.setBfx_c]
      rw [show n + (s.c - n + 32 * k + used) = s.c + 32 * k + used by omega, consume_refilled s k hlow hhigh]
      rfl
  · rw [consume_refilled s k hlow hhigh]
    generalize hu : s.setBfx _ _ _ = u
    have hp : u.p = s.p + 4 * (k + 1) := by rw [← hu]; rfl
    have hw : u.w = wordAt s.buf (s.p + 4 * k) <<< used := by rw [← hu]; rfl
    have hc : u.c = 32 - used := by rw [← hu]; rfl
    have hbuf : u.buf = s.buf := by rw [← hu]; rfl
    have hset : ∀ p w c, u.setBfx p w c = s.setBfx p w c := by rw [← hu]; exact fun _ _ _ => rfl
    rcases window_or_refills u m with hm | ⟨k', used', hlow', hhigh', rfl⟩
    · rw [hc] at hm
      rw [consume_of_le (by omega), Nat.add_assoc _ used m, consume_refilled s k (by omega) (by omega), hset, hp, hw, hc,
        BitVec.shiftLeft_add, Nat.sub_add_eq]
    · rw [consume_refilled u k' hlow' hhigh', hset, hp, hbuf, hc]
      rw [show s.c + 32 * k + used + (32 - used + 32 * k' + used') = s.c + 32 * (k + 1 + k') + used' by omega,
        consume_refilled s _ hlow' hhigh']
      rw [show s.p + 4 * (k + 1) + 4 * (k' + 1) = s.p + 4 * (k + 1 + k' + 1) by omega,
        show s.p + 4 * (k + 1) + 4 * k' = s.p + 4 * (k + 1 + k') by omega]

/-- The stream that is left is the stream behind the bits taken. -/
theorem bitAt_consume (s : State) (n i : Nat) : bitAt (consume s n) i = bitAt s (n + i) := by
  rcases window_or_refills s n with hn | ⟨k, used, hlow, hhigh, rfl⟩
  · rw [consume_of_le hn]
    by_cases hi : i < s.c - n
    · rw [bitAt_of_lt hi, bitAt_of_lt (by omega), State.setBfx_w, BitVec.getMsbD_shiftLeft, Nat.add_comm]
    · rw [bitAt_of_le (by simpa using hi), bitAt_of_le (by omega)]
      simp only [State.setBfx_buf, State.setBfx_p, State.setBfx_c]
      rw [show i - (s.c - n) = n + i - s.c by omega]
  · rw [consume_refilled s k hlow hhigh, bitAt_of_le (s := s) (by omega)]
    rw [show s.c + 32 * k + used + i - s.c = 32 * k + (used + i) by omega]
    by_cases hi : i < 32 - used
    · rw [bitAt_of_lt hi, State.setBfx_w, BitVec.getMsbD_shiftLeft, getMsbD_wordAt _ _ (by omega)]
      rw [show s.p + (32 * k + (used + i)) / 8 = s.p + 4 * k + (i + used) / 8 by omega,
        show (32 * k + (used + i)) % 8 = (i + used) % 8 by omega]
    · rw [bitAt_of_le (by simpa using hi)]
      simp only [State.setBfx_buf, State.setBfx_p, State.setBfx_c]
      rw [show s.p + 4 * (k + 1) + (i - (32 - used)) / 8 = s.p + (32 * k + (used + i)) / 8 by omega,
        show (i - (32 - used)) % 8 = (32 * k + (used + i)) % 8 by omega]

/-- What can be taken at once can be taken in two portions. -/
theorem readable_consume {s : State} {n m : Nat} (h : Readable s (n + m)) : Readable (consume s n) m := by
  obtain ⟨hc, hend, hbits⟩ := h
  rcases window_or_refills s n with hn | ⟨k, used, hlow, hhigh, rfl⟩
  · rw [consume_of_le hn]
    refine ⟨?_, hend, ?_⟩
    all_goals simp only [State.setBfx_endAddr, State.setBfx_p, State.setBfx_c]; omega
  · rw [consume_refilled s k hlow hhigh]
    refine ⟨?_, hend, ?_⟩
    all_goals simp only [State.setBfx_endAddr, State.setBfx_p, State.setBfx_c]; omega

theorem Readable.mono {s : State} {n m : Nat} (h : Readable s n) (hm : m ≤ n) : Readable s m := by
  obtain ⟨hc, hend, hbits⟩ := h
  exact ⟨hc, hend, by omega⟩

end Sys2Proof.Machine
end

section
/-! `GetBits` against the unread stream: a request that can be read answers its next bits, a sequence of requests the bits in
sequence, and a request behind the last whole word raises (20_memory.md rules R53, R55, R56). -/

namespace Sys2Proof.Machine

/-! Requests to the extractor. -/

theorem peek_of_le {s : State} {n : Nat} (hc : s.c ≤ 32) (h : n ≤ s.c) : peek s 0 n = (s.w >>> (32 - n)).toNat := by
  rw [← ofBits_window s.w (by omega), peek]
  congr 1
  refine List.map_congr_left fun k hk => ?_
  rw [List.mem_range] at hk
  rw [Nat.zero_add, bitAt_of_lt (by omega)]

theorem peek_add (s : State) (i n m : Nat) : peek s i (n + m) = peek s i n * 2 ^ m + peek s (i + n) m := by
  unfold peek
  rw [List.range_add, List.map_append, ofBits_append]
  simp [Function.comp_def, Nat.add_assoc]

/-- The state after a refill at the end of the window's bits (20_memory.md rule R53). -/
def loaded (s : State) : State := s.setBfx (s.p + 4) (wordAt s.buf s.p) 32

theorem refill_loaded {s : State} (he : s.p + 4 ≤ s.endAddr) (hs : s.endAddr ≤ s.size) : refill s = .ok () (loaded s) :=
  refill_ok he hs

theorem bitAt_loaded (s : State) (j : Nat) : bitAt (loaded s) j = bitAt s (s.c + j) := by
  rw [bitAt_of_le (s := s) (Nat.le_add_right _ _), Nat.add_sub_cancel_left]
  by_cases hj : j < 32
  · rw [bitAt_of_lt hj]
    exact getMsbD_wordAt s.buf s.p hj
  · rw [bitAt_of_le (by simpa [loaded] using hj)]
    simp only [loaded, State.setBfx_buf, State.setBfx_p, State.setBfx_c]
    rw [show s.p + 4 + (j - 32) / 8 = s.p + j / 8 by omega, show (j - 32) % 8 = j % 8 by omega]

theorem peek_loaded (s : State) (i n : Nat) : peek (loaded s) i n = peek s (s.c + i) n := by
  simp only [peek, bitAt_loaded, Nat.add_assoc]

theorem consume_loaded (s : State) {m : Nat} (h : 1 ≤ m) (h' : m ≤ 32) :
    consume s (s.c + m) = (loaded s).setBfx (s.p + 4) ((loaded s).w <<< m) (32 - m) :=
  consume_refilled s 0 h h'

/-- 20_memory.md rule R55: a request that can be read answers the next bits of the stream and takes them. -/
theorem getBits_eq_peek {n : Nat} {s : State} (hn : n ≤ 32) (h : Readable s n) :
    getBits n s = .ok (peek s 0 n) (consume s n) := by
  obtain ⟨hc, hend, hbits⟩ := h
  by_cases h0 : n = 0
  · subst h0
    rw [consume_zero]
    rfl
  by_cases hw : n ≤ s.c
  · rw [getBits_window h0 hw, takeBits_eq, peek_of_le hc hw, consume_of_le hw]
  obtain ⟨m, rfl⟩ : ∃ m, n = s.c + m := ⟨n - s.c, by omega⟩
  have hrefill : refill s = .ok () (loaded s) := refill_loaded (by omega) hend
  have hlow : peek s s.c m = ((loaded s).w >>> (32 - m)).toNat := by
    have hpeek := peek_of_le (s := loaded s) (n := m) (Nat.le_refl 32) (show m ≤ 32 by omega)
    rwa [peek_loaded, Nat.add_zero] at hpeek
  rw [consume_loaded s (by omega) (by omega), peek_add, Nat.zero_add, hlow]
  by_cases hempty : s.c = 0
  · rw [getBits_empty h0 hn hempty hrefill rfl, takeBits_eq, hempty, Nat.zero_add]
    simp [peek, ofBits, loaded]
  · rw [getBits_straddle hempty (by omega) hrefill, Nat.add_sub_cancel_left, peek_of_le hc (Nat.le_refl _)]
    rfl

/-- 20_memory.md rule R53: a request that needs the word past E raises where it is made. -/
theorem getBits_pastEnd {n : Nat} {s : State} (h : s.c < n) (he : s.endAddr < s.p + 4) :
    getBits n s = .error (.raise .refillPastEnd (.cursor s.p)) s :=
  getBits_refill_error h (refill_pastEnd he)

/-- Settles O1: a request is served from the window, or from the window and the one word behind it. -/
theorem getBitsReadsNextBits : Obligations.GetBitsReadsNextBits :=
  fun _ _ hn => ⟨getBits_eq_peek hn, getBits_pastEnd⟩

/-! Sequences of requests. -/

/-- The unread bits from the `i`-th on, `n` of them. -/
def streamBits (s : State) (i n : Nat) : List Bool := (List.range n).map fun k => bitAt s (i + k)

theorem bitsOf_peek (s : State) (i n : Nat) : bitsOf n (peek s i n) = streamBits s i n := by
  have hbits := bitsOf_ofBits (streamBits s i n)
  rwa [streamBits, List.length_map, List.length_range] at hbits

theorem streamBits_add (s : State) (i n m : Nat) :
    streamBits s i (n + m) = streamBits s i n ++ streamBits s (i + n) m := by
  simp only [streamBits, List.range_add, List.map_append, List.map_map, Function.comp_def, Nat.add_assoc]

theorem streamBits_consume (s : State) (n i m : Nat) : streamBits (consume s n) i m = streamBits s (n + i) m := by
  simp only [streamBits, bitAt_consume, Nat.add_assoc]

/-- Requests in sequence answer, written out, the unread bits in sequence. -/
theorem mapM_getBits {ns : List Nat} {s : State} (hn : ∀ n ∈ ns, n ≤ 32) (h : Readable s ns.sum) :
    ∃ vs, ns.mapM getBits s = .ok vs (consume s ns.sum) ∧ vs.length = ns.length ∧
      (ns.zip vs).flatMap (fun nv => bitsOf nv.1 nv.2) = streamBits s 0 ns.sum := by
  induction ns generalizing s with
  | nil => exact ⟨[], by rw [List.sum_nil, consume_zero]; rfl, rfl, rfl⟩
  | cons n ns ih =>
    rw [List.sum_cons] at h ⊢
    have hfirst := getBits_eq_peek (hn n List.mem_cons_self) (h.mono (Nat.le_add_right _ _))
    obtain ⟨vs, hrest, hlength, hbits⟩ := ih (fun m hm => hn m (List.mem_cons_of_mem n hm)) (readable_consume h)
    refine ⟨peek s 0 n :: vs, ?_, congrArg (· + 1) hlength, ?_⟩
    · rw [← consume_add, List.mapM_cons]
      exact Op.bind_ok.2 ⟨_, _, hfirst, Op.bind_ok.2 ⟨vs, _, hrest, rfl⟩⟩
    · rw [List.zip_cons_cons, List.flatMap_cons, hbits, bitsOf_peek, streamBits_consume, streamBits_add, Nat.add_comm n 0]

/-- Settles O2: at the start of a stream the unread bits are those of the bytes from S on. -/
theorem sequentialReadsReproduceTheBytes : Obligations.SequentialReadsReproduceTheBytes := by
  intro s ns hp hc hn hread
  obtain ⟨vs, hreads, hlength, hbits⟩ := mapM_getBits hn hread
  refine ⟨vs, _, hreads, hlength, hbits.trans (List.map_congr_left fun i _ => ?_), ?_⟩
  · rw [bitAt_of_le (by omega), hp, hc, Nat.zero_add, Nat.sub_zero]
  · rw [(consume_readTo s ns.sum).bitpos, State.bitpos, hp, hc]
    simp

end Sys2Proof.Machine
end

section
/-! Where a request runs dry (20_memory.md rule R53; 60_exceptions.md rule R252): the requests of each command in order, and
the lookahead fetches. -/

namespace Sys2Proof.Machine

/-! Requests that run dry. -/

/-- The cursor and the window's count after bits were taken depend on those before alone. -/
theorem consume_cursor {s t : State} (hp : t.p = s.p) (hc : t.c = s.c) (n : Nat) :
    (consume t n).p = (consume s n).p ∧ (consume t n).c = (consume s n).c := by
  unfold consume
  rw [hp, hc]
  split <;> exact ⟨rfl, rfl⟩

/-- `t` is reached from `s` by taking `n` stream bits, along with updates that an error neither keeps nor records: the
cursor stands where `consume` leaves it. -/
structure Reached (s : State) (n : Nat) (t : State) : Prop where
  p : t.p = (consume s n).p
  c : t.c = (consume s n).c
  cur : t.cur = s.cur
  kept : ∀ e, stopWith e t = stopWith e s

theorem consume_reached (s : State) (n : Nat) : Reached s n (consume s n) := by
  have h := (consume_readTo s n).errorAfter
  exact ⟨rfl, rfl, h.cur, h.kept⟩

namespace Reached

variable {s t u : State} {n m : Nat}

theorem of_eq (hp : t.p = s.p) (hc : t.c = s.c) (hcur : t.cur = s.cur) (hkept : ∀ e, stopWith e t = stopWith e s) :
    Reached s 0 t := by
  rw [← consume_zero s] at hp hc
  exact ⟨hp, hc, hcur, hkept⟩

theorem refl (s : State) : Reached s 0 s := of_eq rfl rfl rfl fun _ => rfl

theorem bounds (h : Reached s n t) : t.start = s.start ∧ t.endAddr = s.endAddr ∧ t.size = s.size :=
  ⟨(congrArg State.start (h.kept default) :), (congrArg State.endAddr (h.kept default) :),
    (congrArg State.size (h.kept default) :)⟩

/-- The cursor after more bits. -/
theorem consumed (h : Reached s n t) (m : Nat) :
    (consume t m).p = (consume s (n + m)).p ∧ (consume t m).c = (consume s (n + m)).c := by
  rw [← consume_add]
  exact consume_cursor h.p h.c m

theorem trans (h : Reached s n t) (h' : Reached t m u) : Reached s (n + m) u := by
  obtain ⟨hp, hc⟩ := h.consumed m
  exact ⟨h'.p.trans hp, h'.c.trans hc, h'.cur.trans h.cur, fun e => (h'.kept e).trans (h.kept e)⟩

theorem errorAfter (h : Reached s n t) : ErrorAfter s n t := by
  refine ⟨?_, h.cur, h.kept⟩
  have hstart := h.bounds.1.trans (consume_reached s n).bounds.1.symm
  rw [← (consume_readTo s n).bitpos]
  unfold State.bitpos
  rw [h.p, h.c, hstart]

theorem readable (h : Reached s n t) (hread : Readable s (n + m)) : Readable t m := by
  obtain ⟨-, hend, hsize⟩ := h.bounds
  obtain ⟨-, hend', hsize'⟩ := (consume_reached s n).bounds
  have hconsumed := readable_consume hread
  simp only [Readable, hend', hsize', ← h.p, ← h.c] at hconsumed
  simp only [Readable, hend, hsize]
  exact hconsumed

theorem runsDry {k : Nat} (h : Reached s n t) (hdry : RunsDry s (n + m) k) : RunsDry t m k := by
  obtain ⟨hread, hfew, hend⟩ := hdry
  obtain ⟨hp, hc⟩ := h.consumed m
  exact ⟨h.readable hread, by rw [hc]; exact hfew, by rw [hp, h.bounds.2.1]; exact hend⟩

end Reached

theorem setNxt_reached (s : State) (b : Byte) : Reached s 0 (s.setNxt b) := .of_eq rfl rfl rfl fun _ => rfl

/-- From `s`, the computation makes the requests `ws`: whichever of them runs dry, it raises there. -/
def Op.RunsDryAt {α : Type} (m : Op α) (s : State) (ws : List Nat) : Prop :=
  ∀ before n rest, ws = before ++ n :: rest → RunsDry s before.sum n →
    ∃ t, Reached s before.sum t ∧ m s = .error (.raise .refillPastEnd (.cursor t.p)) t

namespace Op.RunsDryAt

variable {α β : Type} {s t : State} {m : Op α} {f : α → Op β} {ws ws' : List Nat}

theorem nil : m.RunsDryAt s [] := fun before _ _ h => by simp at h

/-- What a sequence requests behind its first part, which takes `n` bits where they can be read. -/
theorem bind (hm : m.RunsDryAt s ws)
    (hf : ws' ≠ [] → Readable s ws.sum → ∃ a t, m s = .ok a t ∧ Reached s ws.sum t ∧ (f a).RunsDryAt t ws') :
    (m >>= f).RunsDryAt s (ws ++ ws') := by
  intro before n rest hws hdry
  have hcases : (∃ more, ws = before ++ n :: more) ∨ ∃ later, before = ws ++ later ∧ ws' = later ++ n :: rest := by
    rcases List.append_eq_append_iff.1 hws with ⟨later, hbefore, hlater⟩ | ⟨more, hmore, hrest⟩
    · exact .inr ⟨later, hbefore, hlater⟩
    · cases more with
      | nil => exact .inr ⟨[], by simpa using hmore.symm, by simpa using hrest.symm⟩
      | cons k more => cases hrest; exact .inl ⟨more, hmore⟩
  rcases hcases with ⟨more, hmore⟩ | ⟨later, rfl, hlater⟩
  · obtain ⟨t, ht, hstop⟩ := hm before n more hmore hdry
    exact ⟨t, ht, Op.bind_error.2 (.inl hstop)⟩
  · rw [List.sum_append] at hdry ⊢
    obtain ⟨a, u, hu, hreached, hrun⟩ := hf (by simp [hlater]) (hdry.1.mono (Nat.le_add_right _ _))
    obtain ⟨t, ht, hstop⟩ := hrun later n rest hlater (hreached.runsDry hdry)
    exact ⟨t, hreached.trans ht, Op.bind_error.2 (.inr ⟨a, u, hu, hstop⟩)⟩

/-- A sequence whose second part requests nothing. -/
theorem bind_left (hm : m.RunsDryAt s ws) : (m >>= f).RunsDryAt s ws := by
  have h := hm.bind (f := f) (ws' := []) fun h => absurd rfl h
  rwa [List.append_nil] at h

/-- A sequence whose first part requests nothing. -/
theorem bind_right {a : α} (hm : m s = .ok a t) (ht : Reached s 0 t) (hf : (f a).RunsDryAt t ws) :
    (m >>= f).RunsDryAt s ws :=
  nil.bind fun _ _ => ⟨a, t, hm, ht, hf⟩

theorem get_bind {g : State → Op β} (hg : (g s).RunsDryAt s ws) : ((MonadState.get : Op State) >>= g).RunsDryAt s ws :=
  bind_right rfl (.refl s) hg

theorem update_bind {g : State → State} {f : Unit → Op β} (hg : Reached s 0 (g s)) (hf : (f ()).RunsDryAt (g s) ws) :
    (update g >>= f).RunsDryAt s ws := bind_right rfl hg hf

theorem getBits (n : Nat) (s : State) : (getBits n).RunsDryAt s [n] := by
  intro before k rest hws hdry
  obtain ⟨rfl, hws⟩ := List.append_eq_singleton_iff.1 hws.symm |>.resolve_right (by simp)
  cases hws
  obtain ⟨-, hfew, hend⟩ := hdry
  rw [List.sum_nil, consume_zero] at hfew hend
  exact ⟨s, .refl s, getBits_pastEnd hfew hend⟩

/-- A request before the rest of a computation. -/
theorem getBits_bind {n : Nat} {f : Nat → Op β} (hn : n ≤ 32)
    (hf : (f (peek s 0 n)).RunsDryAt (consume s n) ws) : (Machine.getBits n >>= f).RunsDryAt s (n :: ws) :=
  (getBits n s).bind fun _ hread => by
    rw [List.sum_singleton] at hread ⊢
    exact ⟨_, _, getBits_eq_peek hn hread, consume_reached s n, hf⟩

theorem fetchNext_bind {n : Nat} {f : Unit → Op β} (hn : n ≤ 32)
    (hf : (f ()).RunsDryAt ((consume s n).setNxt (BitVec.ofNat 8 (peek s 0 n))) ws) :
    (fetchNext n >>= f).RunsDryAt s (n :: ws) := by
  refine (bind_left (getBits n s)).bind fun _ hread => ?_
  rw [List.sum_singleton] at hread ⊢
  exact ⟨(), _, fetchNext_ok.2 ⟨_, _, getBits_eq_peek hn hread, rfl⟩,
    (consume_reached s n).trans (setNxt_reached _ _), hf⟩

/-- 30_encoding.md rule R75: unpacking requests what the header does not hold of each field. -/
theorem unpackFrom {h6 : BitVec 6} {fields : List Nat} (hfields : ∀ w ∈ fields, w ≤ 32) (avail : Nat) (s : State) :
    (unpackFrom h6 avail fields).RunsDryAt s (streamWidths avail fields) := by
  induction fields generalizing avail s with
  | nil => exact nil
  | cons w fields ih =>
    have hrest := ih fun w' hw' => hfields w' (List.mem_cons_of_mem w hw')
    have hw := hfields w List.mem_cons_self
    unfold Machine.unpackFrom streamWidths
    split
    · exact (hrest _ s).bind_left
    · exact getBits_bind (by omega) (hrest 0 _).bind_left

/-- The error of a request that runs dry, as a command's. -/
theorem runOp {op : Op Unit} {before rest : List Nat} {n : Nat} (h : op.RunsDryAt s (before ++ n :: rest))
    (hdry : RunsDry s before.sum n) :
    runOp op s = .next (enterError .refillPastEnd (.cursor (consume s before.sum).p) (consume s before.sum)) := by
  obtain ⟨t, ht, hstop⟩ := h before n rest rfl hdry
  rw [runOp_raise_after hstop ht.errorAfter, ht.p]

end Op.RunsDryAt

/-! The requests of each command. -/

/-- The widths of a body: none where the lookup raises, else those of the selected entry. -/
theorem entryWidths_cases (s : State) (k : TableId) (h6 : BitVec 6) (widths : Entry → List Nat) :
    entryWidths s k h6 widths = [] ∨ ∃ e, Selects s k h6 e ∧ entryWidths s k h6 widths = widths e := by
  cases he : s.entryAt k h6 with
  | none => exact .inl (by simp [entryWidths, he])
  | some e =>
    by_cases hsel : e.legal k = true ∧ e.rightShift ≤ e.dataLength
    · exact .inr ⟨e, ⟨he, hsel.1, hsel.2⟩, by simp [entryWidths, he, hsel]⟩
    · exact .inl (by simpa [entryWidths, he] using fun h h' => absurd ⟨h, h'⟩ hsel)

theorem setNormalCommand_runsDry (h6 : BitVec 6) (mbp : Bool) (s : State) :
    (setNormalCommand h6 mbp).RunsDryAt s (entryWidths s .normal h6 normalWidths) := by
  rcases entryWidths_cases s .normal h6 normalWidths with hnone | ⟨e, hsel, hwidths⟩
  · rw [hnone]
    exact .nil
  rw [hwidths]
  have hlen := fieldLength_le_of_legal hsel.2.1
  refine .update_bind (.of_eq rfl rfl rfl fun _ => rfl) (.bind_right (lookup_selects (s := s.clearUseMn) hsel) (.refl _) ?_)
  unfold normalWidths
  split
  · exact .bind_left (.bind_left (.unpackFrom (by simp; omega) _ _))
  · exact .bind_left (.bind_left (.unpackFrom (by simp; omega) _ _))

theorem setColorCommand_runsDry (h6 : BitVec 6) (mbp : Bool) (s : State) :
    (setColorCommand h6 mbp).RunsDryAt s (entryWidths s .color h6 (colorWidths s.ba)) := by
  rcases entryWidths_cases s .color h6 (colorWidths s.ba) with hnone | ⟨e, hsel, hwidths⟩
  · rw [hnone]
    exact .nil
  rw [hwidths]
  have hlen := fieldLength_le_of_legal hsel.2.1
  refine .update_bind (.of_eq rfl rfl rfl fun _ => rfl) (.bind_right (lookup_selects (s := s.clearUseMc) hsel) (.refl _) ?_)
  refine .get_bind (.bind_left (.unpackFrom (fun w hw => ?_) _ _))
  rw [List.eq_of_mem_replicate hw]
  omega

theorem replaceAndPush_reads {h6 : BitVec 6} {e : Entry} {s : State} (h : Readable s (3 - (spareBits e).toNat)) :
    ∃ rm, replaceAndPush h6 e s = .ok rm (consume s (3 - (spareBits e).toNat)) :=
  ⟨_, Op.bind_ok.2 ⟨_, _, getBits_eq_peek (by omega) h, rfl⟩⟩

theorem vertexPosition_runsDry (h6 : BitVec 6) (s : State) :
    (vertexPosition h6).RunsDryAt s (entryWidths s .position h6 vertexWidths) := by
  rcases entryWidths_cases s .position h6 vertexWidths with hnone | ⟨e, hsel, hwidths⟩
  · rw [hnone]
    exact .nil
  rw [hwidths]
  have hlen := fieldLength_le_of_legal hsel.2.1
  refine .update_bind (.of_eq rfl rfl rfl fun _ => rfl)
    (.bind_right (lookup_selects (s := s.clearMeshUse) hsel) (.refl _) ?_)
  unfold vertexWidths
  by_cases hfit : e.tagLength + 3 * e.fieldLength < 3
  · rw [if_pos hfit]
    exact .nil
  rw [if_neg hfit, if_neg (fun h => hfit (three_lt_spareBits.1 h))]
  have hspare : 6 - (e.tagLength + 3 * e.fieldLength) = (spareBits e).toNat := by
    unfold spareBits
    omega
  rw [hspare]
  refine .bind (ws := [_]) (.bind_left (.getBits _ _)) fun _ hread => ?_
  rw [List.sum_singleton] at hread ⊢
  obtain ⟨rm, hrm⟩ := replaceAndPush_reads (h6 := h6) hread
  refine ⟨rm, _, hrm, consume_reached _ _, .update_bind (.of_eq rfl rfl rfl fun _ => rfl) (.bind_left ?_)⟩
  exact .unpackFrom (by simp; omega) _ _

theorem vertexStep_runsDry (h6 : BitVec 6) (s : State) :
    (vertexStep h6).RunsDryAt s ((if s.bn || s.bc then 6 else 8) :: entryWidths s .position h6 vertexWidths) := by
  have hposition : ∀ w, (vertexPosition h6).RunsDryAt ((consume s w).setNxt (BitVec.ofNat 8 (peek s 0 w)))
      (entryWidths s .position h6 vertexWidths) := by
    intro w
    obtain ⟨⟨p, win, c, hset⟩, -⟩ := consume_readTo s w
    rw [hset]
    exact vertexPosition_runsDry h6 _
  refine .get_bind ?_
  cases hbn : s.bn <;> cases hbc : s.bc
  all_goals exact .fetchNext_bind (by decide) (.bind_left (hposition _))

/-- The promotion of a subheader puts its class bits before it (30_encoding.md rule R88). -/
theorem promote_normal : ∀ h6 : BitVec 6, h6.setWidth 8 ||| 0xC0#8 = 3#2 ++ h6 := by decide

theorem promote_color : ∀ h6 : BitVec 6, h6.setWidth 8 ||| 0x80#8 = 2#2 ++ h6 := by decide

theorem bundledNormal_promoted (h6 : BitVec 6) (mbp : Bool) (s : State) :
    bundledNormal h6 mbp s =
      (fetchNext (if s.bc then 6 else 8) >>= fun _ => setNormalCommand h6 mbp) (s.setCur (3#2 ++ h6)) := by
  rw [← promote_normal]
  rfl

theorem bundledColor_promoted (h6 : BitVec 6) (mbp : Bool) (s : State) :
    bundledColor h6 mbp s = (fetchNext 8 >>= fun _ => setColorCommand h6 mbp) (s.setCur (2#2 ++ h6)) := by
  rw [← promote_color]
  rfl

theorem runOp_congr {m m' : Op Unit} {s t : State} (h : m s = m' t) : runOp m s = runOp m' t := by
  unfold runOp
  rw [h]

/-- A set table reads its body unless its select names no table (40_set_table.md rule R102). -/
theorem setTableCommand_runsDry (sel : BitVec 2) (a6 : Bool) (s : State) :
    (setTableCommand sel a6).RunsDryAt s (if sel = 3#2 then [] else [15]) := by
  by_cases hsel : sel = 3#2
  · rw [if_pos hsel]
    exact .nil
  · rw [if_neg hsel]
    have hsome : ∀ sel : BitVec 2, sel ≠ 3#2 → (tableOfSelect sel).isSome = true := by decide
    obtain ⟨k, hk⟩ := Option.isSome_iff_exists.1 (hsome sel hsel)
    simp only [setTableCommand, hk]
    exact .bind_left (.getBits 15 s)

/-- Every command, behind the promotion of a bundled part, makes just the requests of `requests`. -/
theorem exec_runsDry (i : Instr) (s : State) :
    ∃ m : Op Unit, exec i s = runOp m (s.setCur (headerDuring s i)) ∧
      m.RunsDryAt (s.setCur (headerDuring s i)) (requests s i) := by
  cases i with
  | nrm h6 => exact ⟨setNormalCommand h6 false, rfl, setNormalCommand_runsDry h6 false s⟩
  | col h6 => exact ⟨setColorCommand h6 false, rfl, setColorCommand_runsDry h6 false s⟩
  | vtx h6 => exact ⟨vertexStep h6, rfl, vertexStep_runsDry h6 s⟩
  | mbr k r1 => exact ⟨_, rfl, .bind_left (.bind_left (.getBits 1 s))⟩
  | sst x bn => exact ⟨_, rfl, .bind_left (.getBits 3 s)⟩
  | stb sel a6 => exact ⟨setTableCommand sel a6, rfl, setTableCommand_runsDry sel a6 s⟩
  | eos => exact ⟨pure (), rfl, .nil⟩
  | vnop => exact ⟨_, rfl, .getBits_bind (by decide) (.bind_left (.getBits _ _))⟩
  | skip8 => exact ⟨_, rfl, .bind_left (.getBits 8 s)⟩
  | pass => exact ⟨_, rfl, .getBits_bind (by decide) (.bind_left (.getBits _ _))⟩
  | nrmSub h6 mbp =>
    refine ⟨_, runOp_congr (bundledNormal_promoted h6 mbp s), .fetchNext_bind (by split <;> decide) ?_⟩
    obtain ⟨⟨p, w, c, hset⟩, -⟩ := consume_readTo (s.setCur (3#2 ++ h6)) (if s.bc then 6 else 8)
    exact hset ▸ setNormalCommand_runsDry h6 mbp _
  | colSub h6 mbp =>
    refine ⟨_, runOp_congr (bundledColor_promoted h6 mbp s), .fetchNext_bind (by decide) ?_⟩
    obtain ⟨⟨p, w, c, hset⟩, -⟩ := consume_readTo (s.setCur (2#2 ++ h6)) 8
    exact hset ▸ setColorCommand_runsDry h6 mbp _
  | reserved02 | reserved03 | reserved04 | reserved05 | reserved06 | reserved09 | reserved0A | reserved0B | reserved0C
  | reserved0D | reserved0E | reserved0F => exact ⟨reservedHeader _, rfl, .nil⟩
  | stbReservedSelect a6 => exact ⟨raise _ _, rfl, .nil⟩

theorem consume_setCur (s : State) (h : Byte) (n : Nat) : consume (s.setCur h) n = (consume s n).setCur h := by
  unfold consume
  rw [State.setCur_c]
  split <;> rfl

/-- Settles O23: the requests of a command that can be read leave the cursor where the next one runs dry. -/
theorem bodyPastEndRaises : Obligations.BodyPastEndRaises := by
  intro s i before rest n hrequests hdry
  obtain ⟨m, hexec, hm⟩ := exec_runsDry i s
  rw [hrequests] at hm
  have hdry' : RunsDry (s.setCur (headerDuring s i)) before.sum n := by
    unfold RunsDry
    rw [consume_setCur]
    exact hdry
  rw [hexec, hm.runOp hdry', consume_setCur]
  rfl

/-! The lookahead fetches. -/

theorem fetchNext_pastEnd {n : Nat} {s : State} (h : s.c < n) (he : s.endAddr < s.p + 4) :
    fetchNext n s = .error (.raise .refillPastEnd (.cursor s.p)) s := fetchNext_error.2 (getBits_pastEnd h he)

/-- A vertex begins with its lookahead fetch. -/
theorem vertexStep_fetch_error {h6 : BitVec 6} {s t : State} {e : Stop}
    (hf : fetchNext (if s.bn = true ∨ s.bc = true then 6 else 8) s = .error e t) : vertexStep h6 s = .error e t := by
  refine Op.bind_error.2 (.inr ⟨s, s, rfl, ?_⟩)
  cases hbn : s.bn <;> cases hbc : s.bc
  all_goals
    simp [hbn, hbc] at hf
    exact Op.bind_error.2 (.inl hf)

theorem step_of_running {s : State} (hcall : s.call = none) (hrun : s.status = .run) (hmore : s.moreBits = true) :
    step s = dispatch s := by
  simp only [step, hcall, hrun, hmore, if_true]

theorem step_of_exhausted {s : State} (hcall : s.call = none) (hrun : s.status = .run) (hmore : s.moreBits = false) :
    step s = .next (s.setStatus .done) := by
  simp only [step, hcall, hrun, hmore, Bool.false_eq_true, if_false]

/-- A header of the vertex class is executed with no fetch of its own. -/
theorem dispatch_vertex {s : State} (h : s.nxt.extractLsb' 6 2 = 1#2) :
    dispatch s = exec (.vtx (s.nxt.extractLsb' 0 6)) (s.setCur s.nxt) := by
  have hfetch : fetch s = .ok (decodeHeader s.nxt) (s.setCur s.nxt) := by
    simp [fetch, Op.bind_eq, isVertexHeader, h]
  have hdecode : decodeHeader s.nxt = .vtx (s.nxt.extractLsb' 0 6) := by
    simp [decodeHeader, h]
  rw [dispatch, hfetch, hdecode]

/-- For any other header the next one is fetched first. -/
theorem dispatch_fetch_error {s t : State} {e : Stop} (h : s.nxt.extractLsb' 6 2 ≠ 1#2)
    (hf : fetchNext 8 (s.setCur s.nxt) = .error e t) : dispatch s = stopped e t := by
  have hfetch : fetch s = .error e t := by
    simp [fetch, Op.bind_eq, Op.map_eq, isVertexHeader, h, hf]
  rw [dispatch, hfetch]

/-- Settles O9: every lookahead fetch comes before the body, behind the load or the promotion of CUR. -/
theorem lookaheadPastEndRaises : Obligations.LookaheadPastEndRaises := by
  intro s he w
  have hvertex : ∀ (h6 : BitVec 6) (t : State), t.bn = s.bn → t.bc = s.bc → t.c < w → t.endAddr < t.p + 4 →
      exec (.vtx h6) t = .next (enterError .refillPastEnd (.cursor t.p) t) := by
    intro h6 t hbn hbc hfew het
    refine runOp_raise (vertexStep_fetch_error ?_)
    rw [hbn, hbc]
    exact fetchNext_pastEnd hfew het
  refine ⟨fun hcall hrun hmore => ⟨fun hclass hfew => ?_, fun hclass hfew => ?_⟩, fun h6 hfew => ?_,
    fun h6 mbp hfew => ?_, fun h6 mbp hfew => ?_⟩
  · rw [step_of_running hcall hrun hmore, dispatch_fetch_error hclass (fetchNext_pastEnd (by exact hfew) (by exact he))]
    rfl
  · rw [step_of_running hcall hrun hmore, dispatch_vertex hclass]
    exact hvertex _ (s.setCur s.nxt) rfl rfl hfew he
  · exact hvertex h6 s rfl rfl hfew he
  · refine (runOp_congr (bundledNormal_promoted h6 mbp s)).trans (runOp_raise (Op.bind_error.2 (.inl ?_)))
    exact fetchNext_pastEnd (s := s.setCur (3#2 ++ h6)) hfew he
  · refine (runOp_congr (bundledColor_promoted h6 mbp s)).trans (runOp_raise (Op.bind_error.2 (.inl ?_)))
    exact fetchNext_pastEnd (s := s.setCur (2#2 ++ h6)) hfew he

end Sys2Proof.Machine
end

section
/-! The window [S, E) of the buffer (20_memory.md rules R50, R51): no computation reads outside it, so no command depends
on the bytes there, and a step of a sound machine has a next state. -/

namespace Sys2Proof.Machine

/-! Another buffer. -/

/-- The state with another buffer. -/
def State.withBuf (s : State) (mem : Memory) : State := { s with buf := mem }

/-- What a computation answers, with another buffer in its state. -/
def Op.Result.withBuf {α : Type} (mem : Memory) : EStateM.Result Stop State α → EStateM.Result Stop State α
  | .ok a t => .ok a (t.withBuf mem)
  | .error e t => .error e (t.withBuf mem)

/-- What a command answers, with another buffer in its next state. -/
def Outcome.withBuf (mem : Memory) : Host.Outcome State Fault Refusal → Host.Outcome State Fault Refusal
  | .next t => .next (t.withBuf mem)
  | .fault r => .fault r
  | .refused r => .refused r

/-- The cursor does not stand below S, and `mem` has the bytes of the buffer on [S, E). -/
structure Agrees (mem : Memory) (s : State) : Prop where
  low : s.start ≤ s.p
  bytes : ∀ a, s.start ≤ a → a < s.endAddr → mem.read a = s.buf.read a

/-- The buffer and the window [S, E) are the same, and the cursor has not moved back. -/
structure SameWindow (s t : State) : Prop where
  buf : t.buf = s.buf
  size : t.size = s.size
  start : t.start = s.start
  len : t.len = s.len
  p : s.p ≤ t.p

theorem SameWindow.refl (s : State) : SameWindow s s := ⟨rfl, rfl, rfl, rfl, Nat.le_refl _⟩

theorem SameWindow.trans {s t u : State} (h : SameWindow s t) (h' : SameWindow t u) : SameWindow s u :=
  ⟨h'.buf.trans h.buf, h'.size.trans h.size, h'.start.trans h.start, h'.len.trans h.len, h.p.trans h'.p⟩

theorem SameWindow.endAddr {s t : State} (h : SameWindow s t) : t.endAddr = s.endAddr := by
  unfold State.endAddr
  rw [h.start, h.len]

theorem Agrees.of_sameWindow {mem : Memory} {s t : State} (h : Agrees mem s) (hst : SameWindow s t) : Agrees mem t := by
  refine ⟨by rw [hst.start]; exact h.low.trans hst.p, fun a hlow hhigh => ?_⟩
  rw [hst.start] at hlow
  rw [hst.endAddr] at hhigh
  rw [hst.buf, h.bytes a hlow hhigh]

/-- A sequence answers the same with another buffer if both parts do. -/
theorem withBuf_bind {α β : Type} {mem : Memory} {m : Op α} {f : α → Op β} {s : State}
    (hm : m (s.withBuf mem) = Op.Result.withBuf mem (m s))
    (hf : ∀ a t, m s = .ok a t → f a (t.withBuf mem) = Op.Result.withBuf mem (f a t)) :
    (m >>= f) (s.withBuf mem) = Op.Result.withBuf mem ((m >>= f) s) := by
  rw [Op.bind_eq, Op.bind_eq, hm]
  cases h : m s with
  | ok a t => exact hf a t h
  | error e t => rfl

/-- The computation reads the buffer in [S, E) only: with other bytes outside it does the same, and it meets no byte that
does not exist unless E passes the buffer. -/
structure Op.InWindow {α : Type} (mem : Memory) (m : Op α) : Prop where
  same : ∀ s, Agrees mem s → m (s.withBuf mem) = Op.Result.withBuf mem (m s)
  keeps : ∀ {s a t}, m s = .ok a t → SameWindow s t
  byte : ∀ {s a t}, m s = .error (.noByte a) t → s.size < s.endAddr

namespace Op.InWindow

variable {α β : Type} {mem : Memory}

theorem bind {m : Op α} {f : α → Op β} (hm : m.InWindow mem) (hf : ∀ a, (f a).InWindow mem) : (m >>= f).InWindow mem where
  same s hs := withBuf_bind (hm.same s hs) fun a t h => (hf a).same t (hs.of_sameWindow (hm.keeps h))
  keeps h := by
    obtain ⟨a, u, hu, ht⟩ := Op.bind_ok.1 h
    exact (hm.keeps hu).trans ((hf a).keeps ht)
  byte h := by
    rcases Op.bind_error.1 h with he | ⟨a, u, hu, he⟩
    · exact hm.byte he
    · have hwindow := hm.keeps hu
      rw [← hwindow.size, ← hwindow.endAddr]
      exact (hf a).byte he

theorem pure (a : α) : (Pure.pure a : Op α).InWindow mem where
  same _ _ := rfl
  keeps h := by cases h; exact .refl _
  byte h := by cases h

theorem raise (r : Reason) (i : Info) : (raise r i : Op α).InWindow mem where
  same _ _ := rfl
  keeps h := by cases h
  byte h := by cases h

theorem need (v : Option α) : (need v).InWindow mem := by
  cases v with
  | none => exact raise _ _
  | some a => exact pure a

/-- A read of registers: the buffer is none of what the rest takes from the state. -/
theorem get_bind {g : State → Op β} (hbuf : ∀ s, g (s.withBuf mem) = g s) (hg : ∀ s, (g s).InWindow mem) :
    ((MonadState.get : Op State) >>= g).InWindow mem where
  same s hs := by
    change g (s.withBuf mem) (s.withBuf mem) = Op.Result.withBuf mem (g s s)
    rw [hbuf, (hg s).same s hs]
  keeps {s _ _} h := (hg s).keeps h
  byte {s _ _} h := (hg s).byte h

theorem update {f : State → State} (hbuf : ∀ s, f (s.withBuf mem) = (f s).withBuf mem) (hf : ∀ s, SameWindow s (f s)) :
    (update f).InWindow mem where
  same s _ := congrArg (EStateM.Result.ok ()) (hbuf s)
  keeps {s _ _} h := by cases h; exact hf s
  byte h := by cases h

/-- An update of registers: neither the buffer nor the window nor the cursor is among them, which its definition shows. -/
theorem register {f : State → State} (hbuf : ∀ s, f (s.withBuf mem) = (f s).withBuf mem := by exact fun _ => rfl)
    (hf : ∀ s, (f s).buf = s.buf ∧ (f s).size = s.size ∧ (f s).start = s.start ∧ (f s).len = s.len ∧ (f s).p = s.p
      := by exact fun _ => ⟨rfl, rfl, rfl, rfl, rfl⟩) : (Machine.update f).InWindow mem :=
  update hbuf fun s => by
    obtain ⟨h1, h2, h3, h4, h5⟩ := hf s
    exact ⟨h1, h2, h3, h4, h5.ge⟩

end Op.InWindow

/-! The extractor and the operands. -/

/-- Inside E a refill is four reads and the load of their word. -/
theorem refill_reads {s : State} (he : s.p + 4 ≤ s.endAddr) : refill s =
    (do
      let b0 ← memRead s.p
      let b1 ← memRead (s.p + 1)
      let b2 ← memRead (s.p + 2)
      let b3 ← memRead (s.p + 3)
      update (·.setBfx (s.p + 4) (b0 ++ b1 ++ b2 ++ b3) 32) : Op Unit) s := by
  have h : ¬ s.endAddr < s.p + 4 := by omega
  simp [refill, Op.bind_eq, h]

theorem memRead_withBuf {mem : Memory} {s : State} {a : Nat} (h : mem.read a = s.buf.read a) :
    memRead a (s.withBuf mem) = Op.Result.withBuf mem (memRead a s) := by
  change (if a < s.size then EStateM.Result.ok (mem.read a) (s.withBuf mem) else _) = _
  rw [memRead_eq, h]
  split <;> rfl

theorem memRead_ok {s t : State} {a : Nat} {b : Byte} (h : memRead a s = .ok b t) : t = s := by
  rw [memRead_eq] at h
  split at h <;> cases h
  rfl

/-- A read of a byte in the window, and what follows it in the same state. -/
theorem memRead_bind_withBuf {α : Type} {mem : Memory} {s : State} {a : Nat} {f : Byte → Op α}
    (h : mem.read a = s.buf.read a) (hf : ∀ b, f b (s.withBuf mem) = Op.Result.withBuf mem (f b s)) :
    (memRead a >>= f) (s.withBuf mem) = Op.Result.withBuf mem ((memRead a >>= f) s) :=
  withBuf_bind (memRead_withBuf h) fun b t ht => by rw [memRead_ok ht, hf]

theorem refill_inWindow (mem : Memory) : refill.InWindow mem where
  same s hs := by
    by_cases he : s.endAddr < s.p + 4
    · rw [refill_pastEnd he, refill_pastEnd (s := s.withBuf mem) he]
      rfl
    · have hlow := hs.low
      have hread : ∀ k < 4, mem.read (s.p + k) = s.buf.read (s.p + k) := fun k hk =>
        hs.bytes _ (by omega) (by omega)
      have hinside : s.p + 4 ≤ s.endAddr := Nat.not_lt.1 he
      rw [refill_reads hinside, refill_reads (s := s.withBuf mem) hinside]
      refine memRead_bind_withBuf (hread 0 (by decide)) fun b0 => ?_
      refine memRead_bind_withBuf (hread 1 (by decide)) fun b1 => ?_
      refine memRead_bind_withBuf (hread 2 (by decide)) fun b2 => ?_
      exact memRead_bind_withBuf (hread 3 (by decide)) fun b3 => rfl
  keeps h := by
    obtain ⟨w, rfl⟩ := refill_frame h
    exact ⟨rfl, rfl, rfl, rfl, Nat.le_add_right _ _⟩
  byte {s _ _} h := by
    rcases refill_cases s with ⟨-, hr⟩ | ⟨-, hr⟩ | ⟨hend, -⟩
    · rw [hr] at h; cases h
    · rw [hr] at h; cases h
    · exact hend

theorem takeBits_inWindow (n : Nat) (mem : Memory) : (takeBits n).InWindow mem where
  same _ _ := rfl
  keeps h := by cases h; exact ⟨rfl, rfl, rfl, rfl, Nat.le_refl _⟩
  byte h := by cases h

theorem getBits_inWindow (n : Nat) (mem : Memory) : (getBits n).InWindow mem := by
  have htake : ∀ n, (takeBits n).InWindow mem := fun n => takeBits_inWindow n mem
  have hrest : Op.InWindow mem (do
      let s ← get
      if n ≤ s.c then takeBits n
      else
        let hi := (s.w >>> (32 - s.c)).toNat
        refill
        let lo ← takeBits (n - s.c)
        return hi * 2 ^ (n - s.c) + lo) := by
    refine .get_bind (fun _ => rfl) fun s => ?_
    split
    · exact htake n
    · exact .bind (refill_inWindow mem) fun _ => .bind (htake _) fun _ => .pure _
  unfold getBits
  split
  · exact .pure 0
  · refine .get_bind (fun _ => rfl) fun s => ?_
    split
    · exact .bind (refill_inWindow mem) fun _ => hrest
    · exact hrest

theorem fetchNext_inWindow (n : Nat) (mem : Memory) : (fetchNext n).InWindow mem :=
  .bind (getBits_inWindow n mem) fun _ => .register

theorem unpackFrom_inWindow (h6 : BitVec 6) (avail : Nat) (ws : List Nat) (mem : Memory) :
    (unpackFrom h6 avail ws).InWindow mem := by
  induction ws generalizing avail with
  | nil => exact .pure _
  | cons w ws ih =>
    rw [unpackFrom]
    split
    · exact .bind (ih _) fun _ => .pure _
    · exact .bind (getBits_inWindow _ mem) fun _ => .bind (ih _) fun _ => .pure _

theorem unpack_inWindow (h6 : BitVec 6) (t : Nat) (ws : List Nat) (mem : Memory) : (unpack h6 t ws).InWindow mem :=
  unpackFrom_inWindow h6 _ ws mem

theorem lookup_inWindow (k : TableId) (h6 : BitVec 6) (mem : Memory) : (lookup k h6).InWindow mem := by
  refine .get_bind (fun s => ?_) fun s => ?_
  · cases k <;> rfl
  · split
    · exact .raise _ _
    · split
      · exact .raise _ _
      · exact .pure _

/-! The sink. -/

theorem colorOut_inWindow (mem : Memory) : colorOut.InWindow mem := by
  refine .get_bind (fun _ => rfl) fun s => .bind (.need _) fun c => ?_
  split
  · exact .bind (.need _) fun a => .pure _
  · exact .pure _

theorem vertexNormal_inWindow (mem : Memory) : vertexNormal.InWindow mem := by
  refine .get_bind (fun _ => rfl) fun s => ?_
  split
  · exact .bind (.need _) fun n => .pure _
  · exact .pure _

theorem vertexColor_inWindow (mem : Memory) : vertexColor.InWindow mem := by
  refine .get_bind (fun _ => rfl) fun s => ?_
  split
  · exact .bind (colorOut_inWindow mem) fun c => .pure _
  · exact .pure _

theorem emit_inWindow (e : Event) (mem : Memory) : (emit e).InWindow mem :=
  .register

theorem emitVertex_inWindow (mem : Memory) : emitVertex.InWindow mem := by
  refine .get_bind (fun _ => rfl) fun s => .bind (.need _) fun p => .bind (vertexNormal_inWindow mem) fun n => ?_
  refine .bind (vertexColor_inWindow mem) fun c => .bind (emit_inWindow _ mem) fun _ => ?_
  exact .register

/-! Colors. -/

theorem setColor_inWindow (v : Color) (mem : Memory) : (update (·.setColor v)).InWindow mem :=
  .register

theorem setAlpha_inWindow (v : Word16) (mem : Memory) : (update (·.setAlpha v)).InWindow mem :=
  .register

theorem accumulateColor_inWindow (e : Entry) (fs : List Nat) (mem : Memory) : (accumulateColor e fs).InWindow mem := by
  refine .get_bind (fun _ => rfl) fun s => ?_
  dsimp only
  split
  · refine .bind (setColor_inWindow _ mem) fun _ => ?_
    split
    · exact setAlpha_inWindow _ mem
    · exact .pure _
  · refine .bind (.need _) fun c => .bind (setColor_inWindow _ mem) fun _ => ?_
    split
    · exact .bind (.need _) fun a => setAlpha_inWindow _ mem
    · exact .pure _

theorem pushColor_inWindow (mbp : Bool) (mem : Memory) : (pushColor mbp).InWindow mem := by
  cases mbp <;> exact .register

theorem setColorCommand_inWindow (h6 : BitVec 6) (mbp : Bool) (mem : Memory) : (setColorCommand h6 mbp).InWindow mem := by
  refine .bind .register fun _ => ?_
  refine .bind (lookup_inWindow _ _ mem) fun e => .get_bind (fun _ => rfl) fun s => ?_
  refine .bind (unpack_inWindow _ _ _ mem) fun fs => .bind (accumulateColor_inWindow _ _ mem) fun _ => ?_
  refine .bind (pushColor_inWindow _ mem) fun _ => .get_bind (fun _ => rfl) fun s => ?_
  split
  · exact .bind (colorOut_inWindow mem) fun c => emit_inWindow _ mem
  · exact .pure _

theorem bundledColor_inWindow (h6 : BitVec 6) (mbp : Bool) (mem : Memory) : (bundledColor h6 mbp).InWindow mem :=
  .bind .register fun _ =>
    .bind (fetchNext_inWindow 8 mem) fun _ => setColorCommand_inWindow h6 mbp mem

/-! Normals. -/

theorem correctNormal_inWindow (n : Normal) (mem : Memory) : (correctNormal n).InWindow mem := by
  unfold correctNormal
  split
  · exact .pure _
  · split
    · exact .pure _
    · exact .raise _ _

theorem absoluteNormal_inWindow (h6 : BitVec 6) (e : Entry) (mem : Memory) : (absoluteNormal h6 e).InWindow mem :=
  .bind (unpack_inWindow _ _ _ mem) fun _ => .pure _

theorem relativeNormal_inWindow (h6 : BitVec 6) (e : Entry) (mem : Memory) : (relativeNormal h6 e).InWindow mem :=
  .bind (unpack_inWindow _ _ _ mem) fun _ => .get_bind (fun _ => rfl) fun _ =>
    .bind (.need _) fun _ => correctNormal_inWindow _ mem

theorem setNormal_inWindow (v : Normal) (mem : Memory) : (update (·.setNormal v)).InWindow mem :=
  .register

theorem pushNormal_inWindow (mbp : Bool) (mem : Memory) : (pushNormal mbp).InWindow mem := by
  cases mbp <;> exact .register

theorem setNormalCommand_inWindow (h6 : BitVec 6) (mbp : Bool) (mem : Memory) :
    (setNormalCommand h6 mbp).InWindow mem := by
  refine .bind .register fun _ => ?_
  refine .bind (lookup_inWindow _ _ mem) fun e => ?_
  have hrest : ∀ n : Normal, Op.InWindow mem (do
      if !inDomain n.u n.v then raise .outOfDomain (.uv n.u n.v)
      update (·.setNormal n)
      pushNormal mbp
      let s ← get
      if !s.bn then emit (.globalNormal (convert s.params n))) := by
    intro n
    split
    · exact .raise _ _
    · refine .bind (setNormal_inWindow n mem) fun _ => .bind (pushNormal_inWindow mbp mem) fun _ => ?_
      refine .get_bind (fun _ => rfl) fun s => ?_
      split
      · exact emit_inWindow _ mem
      · exact .pure _
  split
  · exact .bind (absoluteNormal_inWindow _ _ mem) hrest
  · exact .bind (relativeNormal_inWindow _ _ mem) hrest

theorem bundledNormal_inWindow (h6 : BitVec 6) (mbp : Bool) (mem : Memory) : (bundledNormal h6 mbp).InWindow mem :=
  .bind .register fun _ =>
    .get_bind (fun _ => rfl) fun _ => .bind (fetchNext_inWindow _ mem) fun _ => setNormalCommand_inWindow h6 mbp mem

/-! Vertices. -/

theorem setPos_inWindow (v : Position) (mem : Memory) : (update (·.setPos v)).InWindow mem :=
  .register

theorem setRep_inWindow (v : BitVec 2) (mem : Memory) : (update (·.setRep v)).InWindow mem :=
  .register

theorem clearMeshUse_inWindow (mem : Memory) : (update (·.clearMeshUse)).InWindow mem :=
  .register

theorem accumulatePosition_inWindow (e : Entry) (fs : List Nat) (mem : Memory) :
    (accumulatePosition e fs).InWindow mem := by
  unfold accumulatePosition
  dsimp only
  split
  · exact setPos_inWindow _ mem
  · exact .get_bind (fun _ => rfl) fun s => .bind (.need _) fun p => setPos_inWindow _ mem

theorem vertexPosition_inWindow (h6 : BitVec 6) (mem : Memory) : (vertexPosition h6).InWindow mem := by
  refine .bind (clearMeshUse_inWindow mem) fun _ => .bind (lookup_inWindow _ _ mem) fun e => ?_
  split
  · exact .raise _ _
  refine .bind (.bind (getBits_inWindow _ mem) fun _ => .pure _) fun rm => .bind (setRep_inWindow _ mem) fun _ => ?_
  refine .bind (unpack_inWindow _ _ _ mem) fun fs => .bind (accumulatePosition_inWindow _ _ mem) fun _ => ?_
  split
  · exact .bind .register fun _ => .pure _
  · exact .pure _

theorem vertexStep_inWindow (h6 : BitVec 6) (mem : Memory) : (vertexStep h6).InWindow mem := by
  have hnormal := fun sub mbp => bundledNormal_inWindow sub mbp mem
  have hcolor := fun sub mbp => bundledColor_inWindow sub mbp mem
  have hemit : ∀ _ : Unit, emitVertex.InWindow mem := fun _ => emitVertex_inWindow mem
  refine .get_bind (fun _ => rfl) fun s => ?_
  split
  all_goals refine .bind (fetchNext_inWindow _ mem) fun _ => .bind (vertexPosition_inWindow h6 mem) fun mbp => ?_
  · exact emitVertex_inWindow mem
  · exact .get_bind (fun _ => rfl) fun s => .bind (hnormal _ mbp) hemit
  · exact .get_bind (fun _ => rfl) fun s => .bind (hcolor _ mbp) hemit
  · exact .get_bind (fun _ => rfl) fun s => .bind (hnormal _ mbp) fun _ =>
      .get_bind (fun _ => rfl) fun s => .bind (hcolor _ mbp) hemit

/-! Mesh buffer references. -/

theorem reuseNormal_inWindow (slot : Slot) (mem : Memory) : (reuseNormal slot).InWindow mem := by
  refine .get_bind (fun _ => rfl) fun s => ?_
  split
  · exact .bind (.need _) fun n => setNormal_inWindow n mem
  · exact .pure _

theorem reuseColor_inWindow (slot : Slot) (mem : Memory) : (reuseColor slot).InWindow mem := by
  refine .get_bind (fun _ => rfl) fun s => ?_
  split
  · refine .bind (.need _) fun c => .bind (setColor_inWindow c mem) fun _ => ?_
    split
    · exact .bind (.need _) fun a => setAlpha_inWindow a mem
    · exact .pure _
  · exact .pure _

theorem meshReference_inWindow (k : BitVec 4) (r1 : Bool) (mem : Memory) : (meshReference k r1).InWindow mem := by
  refine .bind (getBits_inWindow 1 mem) fun r0 => .bind (setRep_inWindow _ mem) fun _ => ?_
  refine .get_bind (fun _ => rfl) fun s => .bind (.need _) fun p => .bind (setPos_inWindow p mem) fun _ => ?_
  refine .bind (reuseNormal_inWindow _ mem) fun _ => .bind (reuseColor_inWindow _ mem) fun _ => ?_
  exact clearMeshUse_inWindow mem

/-! Tables. -/

theorem fillTable_inWindow (k : TableId) (adr : BitVec 7) (e : Entry) (mem : Memory) :
    (update fun s => s.setTable k (fillSlots (s.table k) adr e)).InWindow mem := by
  refine .register (fun s => ?_) fun s => ?_
  · cases k <;> rfl
  · simp

theorem setTableCommand_inWindow (sel : BitVec 2) (a6 : Bool) (mem : Memory) : (setTableCommand sel a6).InWindow mem := by
  unfold setTableCommand
  split
  · exact .raise _ _
  · exact .bind (getBits_inWindow 15 mem) fun ii => fillTable_inWindow _ _ _ mem

/-! Commands and steps. -/

/-- Every command is a computation that reads in [S, E) only. -/
theorem exec_inWindow (i : Instr) (mem : Memory) :
    ∃ m : Op Unit, (∀ s, exec i s = runOp m s) ∧ m.InWindow mem := by
  have hbits := fun n => getBits_inWindow n mem
  cases i with
  | nrm h6 => exact ⟨_, fun _ => rfl, setNormalCommand_inWindow h6 false mem⟩
  | col h6 => exact ⟨_, fun _ => rfl, setColorCommand_inWindow h6 false mem⟩
  | vtx h6 => exact ⟨_, fun _ => rfl, vertexStep_inWindow h6 mem⟩
  | mbr k r1 => exact ⟨_, fun _ => rfl, .bind (meshReference_inWindow k r1 mem) fun _ => emitVertex_inWindow mem⟩
  | sst x bn =>
    exact ⟨_, fun _ => rfl, .bind (hbits 3) fun ii =>
      .bind .register fun _ => emit_inWindow _ mem⟩
  | stb sel a6 => exact ⟨_, fun _ => rfl, setTableCommand_inWindow sel a6 mem⟩
  | eos => exact ⟨_, fun _ => rfl, .pure ()⟩
  | vnop => exact ⟨_, fun _ => rfl, .bind (hbits 5) fun n => .bind (hbits n) fun _ => .pure ()⟩
  | skip8 => exact ⟨_, fun _ => rfl, .bind (hbits 8) fun _ => .pure ()⟩
  | pass => exact ⟨_, fun _ => rfl, .bind (hbits 24) fun _ => .bind (hbits 32) fun _ => .pure ()⟩
  | nrmSub h6 mbp => exact ⟨_, fun _ => rfl, bundledNormal_inWindow h6 mbp mem⟩
  | colSub h6 mbp => exact ⟨_, fun _ => rfl, bundledColor_inWindow h6 mbp mem⟩
  | reserved02 | reserved03 | reserved04 | reserved05 | reserved06 | reserved09 | reserved0A | reserved0B | reserved0C
  | reserved0D | reserved0E | reserved0F => exact ⟨reservedHeader _, fun _ => rfl, .raise _ _⟩
  | stbReservedSelect a6 => exact ⟨raise _ _, fun _ => rfl, .raise _ _⟩

/-- What a command's computation answers with another buffer, as the command's outcome. -/
theorem runOp_withBuf {mem : Memory} {m : Op Unit} {s : State} (hm : m.InWindow mem) (hs : Agrees mem s) :
    runOp m (s.withBuf mem) = Outcome.withBuf mem (runOp m s) := by
  unfold runOp
  rw [hm.same s hs]
  cases m s with
  | ok a t => rfl
  | error e t => cases e <;> rfl

/-- Settles O52: every read of a command lies in [S, E), where the two buffers agree. -/
theorem outsideWindowNeverRead : Obligations.OutsideWindowNeverRead := by
  intro i s mem hlow hbytes
  obtain ⟨m, hexec, hm⟩ := exec_inWindow i mem
  have hrun := runOp_withBuf hm ⟨hlow, hbytes⟩
  rw [← hexec, ← hexec] at hrun
  exact hrun

theorem fetch_inWindow (mem : Memory) : fetch.InWindow mem := by
  refine .bind .register fun _ => .get_bind (fun _ => rfl) fun s => ?_
  dsimp only
  split
  · exact .bind (fetchNext_inWindow 8 mem) fun _ => .pure _
  · exact .pure _

/-- Where E lies in the buffer, a computation that stops raises an error. -/
theorem Op.InWindow.stopped_next {α : Type} {mem : Memory} {m : Op α} {s t : State} {e : Stop} (hm : m.InWindow mem)
    (hend : s.endAddr ≤ s.size) (h : m s = .error e t) : ∃ u, stopped e t = .next u := by
  cases e with
  | raise r i => exact ⟨_, rfl⟩
  | noByte a => exact absurd (hm.byte h) (Nat.not_lt.2 hend)

theorem exec_next (i : Instr) {s : State} (hend : s.endAddr ≤ s.size) : ∃ t, exec i s = .next t := by
  obtain ⟨m, hexec, hm⟩ := exec_inWindow i s.buf
  rw [hexec]
  unfold runOp
  cases h : m s with
  | ok a t => exact ⟨t, rfl⟩
  | error e t => exact hm.stopped_next hend h

theorem dispatch_next {s : State} (hend : s.endAddr ≤ s.size) : ∃ t, dispatch s = .next t := by
  have hfetch := fetch_inWindow s.buf
  unfold dispatch
  cases h : fetch s with
  | ok i t =>
    have hwindow := hfetch.keeps h
    exact exec_next i (by rw [hwindow.endAddr, hwindow.size]; exact hend)
  | error e t => exact hfetch.stopped_next hend h

/-- Settles O55: in a sound running state E lies in the buffer, so the fetch and the command have their bytes. -/
theorem soundStepHasNextState : Obligations.SoundStepHasNextState := by
  rintro s ⟨-, -, hregs⟩ hcall
  have hnext : ∃ t, step s = .next t := by
    cases hst : s.status with
    | run =>
      obtain ⟨⟨-, -, hend, -⟩, -⟩ := hregs (.inl hst)
      cases hmore : s.moreBits with
      | true => rw [step_of_running hcall hst hmore]; exact dispatch_next hend
      | false => exact ⟨_, step_of_exhausted hcall hst hmore⟩
    | idle | done | error e => exact ⟨s.await, by simp only [step, hcall, hst]⟩
  obtain ⟨t, ht⟩ := hnext
  refine ⟨t, ht, ?_⟩
  rcases step_cases ht with ⟨_, _, _, _, _, _, hc, -⟩ | ⟨_, _, hc, -⟩ | ⟨-, -, i, u, hmoves, hend⟩ | ⟨-, -, rfl⟩ | ⟨-, -, rfl⟩
  · rw [hcall] at hc; cases hc
  · rw [hcall] at hc; cases hc
  · exact (hmoves.sameRequest.trans hend.sameRequest).call.trans hcall
  · exact hcall
  · exact hcall

end Sys2Proof.Machine
end

section
/-! The normal end of a decode (20_memory.md rule R59; 45_dispatch_control.md rule R211). -/

namespace Sys2Proof.Machine

/-- A command of a running decode leaves it running, or fails. -/
theorem CommandEnd.status_ne_done {i : Instr} {u t : State} (h : CommandEnd i u t) (hrun : u.status = .run) :
    t.status ≠ .done := by
  cases h with
  | completes | setsBundling => exact fun ht => by cases hrun.symm.trans ht
  | setsTable => exact fun ht => by rw [State.setTable_status, hrun] at ht; cases ht
  | fails => exact fun ht => by cases ht

theorem moreBits_false {s : State} : s.moreBits = false ↔ s.endAddr ≤ s.p ∧ s.c = 0 := by
  simp [State.moreBits]

/-- Settles O57: a decode ends where no bits remain, and the cursor of a sound state stands on a word before E. -/
theorem normalEndConsumesWholeWords : Obligations.NormalEndConsumesWholeWords := by
  rintro s t ⟨-, -, hregs⟩ hcall hrun h hdone
  obtain ⟨⟨hlow, hhigh, -, hword, -⟩, -⟩ := hregs (.inl hrun)
  cases hmore : s.moreBits with
  | true =>
    rw [step_of_running hcall hrun hmore] at h
    obtain ⟨i, u, hmoves, hend⟩ := dispatch_ends h
    exact absurd hdone (hend.status_ne_done (hmoves.status.trans hrun))
  | false =>
    obtain ⟨hp, hc⟩ := moreBits_false.1 hmore
    have hpe : s.p = s.endAddr := Nat.le_antisymm hhigh hp
    refine ⟨hpe, hc, ?_⟩
    rw [hpe, State.endAddr, Nat.add_sub_cancel_left] at hword
    exact hword

end Sys2Proof.Machine
end

section
/-! `Unpack` against the unread stream (30_encoding.md rules R74, R75): fields are consecutive bits of the header's data
bits continued by the stream. -/

namespace Sys2Proof.Machine

/-! Bit strings as numbers. -/

theorem bitsOf_length (w v : Nat) : (bitsOf w v).length = w := by simp [bitsOf]

theorem bitsOf_mod (w v : Nat) : bitsOf w (v % 2 ^ w) = bitsOf w v := by
  refine List.map_congr_left fun i hi => ?_
  rw [List.mem_range] at hi
  rw [Nat.testBit_mod_two_pow, decide_eq_true (by omega), Bool.true_and]

theorem ofBits_bitsOf_mod (w v : Nat) : ofBits (bitsOf w v) = v % 2 ^ w := by
  rw [← bitsOf_mod, ofBits_bitsOf (Nat.mod_lt _ (Nat.two_pow_pos w))]

theorem ofBits_lt (bs : List Bool) : ofBits bs < 2 ^ bs.length := by
  rw [← bitsOf_ofBits bs, ofBits_bitsOf_mod, bitsOf_length]
  exact Nat.mod_lt _ (Nat.two_pow_pos _)

theorem peek_lt (s : State) (i n : Nat) : peek s i n < 2 ^ n := by
  have h := ofBits_lt ((List.range n).map fun k => bitAt s (i + k))
  rwa [List.length_map, List.length_range] at h

theorem peek_consume (s : State) (n i m : Nat) : peek (consume s n) i m = peek s (n + i) m := by
  simp only [peek, bitAt_consume, Nat.add_assoc]

@[simp] theorem bitField_zero (v lo : Nat) : bitField v lo 0 = 0 := Nat.mod_one _

/-! Fields of the header's data bits and the stream. -/

section
variable (s : State) (h6 : BitVec 6)

theorem dataField_lt (avail start i w : Nat) : dataField s h6 avail start i w < 2 ^ w := by
  have h := ofBits_lt ((List.range w).map fun k => dataBitAt s h6 avail start (i + k))
  rwa [List.length_map, List.length_range] at h

theorem dataField_add (avail start i n m : Nat) :
    dataField s h6 avail start i (n + m) =
      dataField s h6 avail start i n * 2 ^ m + dataField s h6 avail start (i + n) m := by
  unfold dataField
  rw [List.range_add, List.map_append, ofBits_append]
  simp [Function.comp_def, Nat.add_assoc]

/-- A field that the header holds. -/
theorem dataField_header {avail i w : Nat} (h : w ≤ avail - i) (start : Nat) :
    dataField s h6 avail start i w = bitField h6.toNat (avail - i - w) w := by
  have hbits : (List.range w).map (fun k => dataBitAt s h6 avail start (i + k)) =
      bitsOf w (h6.toNat / 2 ^ (avail - i - w)) := by
    refine List.map_congr_left fun k hk => ?_
    rw [List.mem_range] at hk
    rw [dataBitAt, if_pos (by omega), Nat.testBit_div_two_pow, BitVec.testBit_toNat]
    congr 1
    omega
  rw [dataField, hbits, ofBits_bitsOf_mod, bitField]

/-- A field behind the header's data bits. -/
theorem dataField_stream {avail i : Nat} (h : avail ≤ i) (start w : Nat) :
    dataField s h6 avail start i w = peek s (start + (i - avail)) w := by
  unfold dataField peek
  congr 1
  refine List.map_congr_left fun k _ => ?_
  rw [dataBitAt, if_neg (by omega)]
  congr 1
  omega

/-- A field that the header begins and the stream continues (30_encoding.md rule R75). -/
theorem dataField_split {avail i w : Nat} (h : avail - i ≤ w) (start : Nat) :
    dataField s h6 avail start i w = bitField h6.toNat 0 (avail - i) * 2 ^ (w - (avail - i)) +
      peek s (start + (i - avail)) (w - (avail - i)) := by
  obtain ⟨m, rfl⟩ : ∃ m, w = (avail - i) + m := ⟨w - (avail - i), by omega⟩
  rw [dataField_add, dataField_header s h6 (Nat.le_refl _), dataField_stream s h6 (by omega), Nat.sub_self,
    Nat.add_sub_cancel_left]
  congr 2
  omega

/-- Where the stream stands does not matter to a field that the header holds. -/
theorem dataField_congr_start {avail i w : Nat} (h : w ≤ avail - i) (start start' : Nat) :
    dataField s h6 avail start i w = dataField s h6 avail start' i w := by
  rw [dataField_header s h6 h, dataField_header s h6 h]

/-- The fields of a list of equal widths. -/
theorem fieldAt_dataFields_replicate (avail start i w : Nat) {n j : Nat} (h : j < n) :
    fieldAt (dataFields s h6 avail start i (List.replicate n w)) j = dataField s h6 avail start (i + j * w) w := by
  induction n generalizing i j with
  | zero => omega
  | succ n ih =>
    rw [List.replicate_succ]
    cases j with
    | zero => rw [Nat.zero_mul, Nat.add_zero]; rfl
    | succ j =>
      rw [show i + (j + 1) * w = i + w + j * w by ring]
      exact ih (i + w) (by omega)

end

/-- 30_encoding.md rule R75: from the `i`-th data bit on, unpacking answers the consecutive fields and takes the bits
that the header does not hold. -/
theorem unpackFrom_eq {h6 : BitVec 6} {avail start i : Nat} {ws : List Nat} {s : State} (hw : ∀ w ∈ ws, w ≤ 32)
    (h : Readable s (start + (i + ws.sum - avail))) :
    unpackFrom h6 (avail - i) ws (consume s (start + (i - avail))) =
      .ok (dataFields s h6 avail start i ws) (consume s (start + (i + ws.sum - avail))) := by
  induction ws generalizing i with
  | nil => rfl
  | cons w ws ih =>
    have hrest := fun h' => ih (i := i + w) (fun w' hw' => hw w' (List.mem_cons_of_mem w hw')) h'
    rw [List.sum_cons, ← Nat.add_assoc] at h ⊢
    unfold unpackFrom dataFields
    split
    · next hle =>
      rw [← dataField_header s h6 hle start, Nat.sub_sub, show i - avail = i + w - avail by omega]
      exact Op.bind_ok.2 ⟨_, _, hrest h, rfl⟩
    · next hlt =>
      have hle := hw w List.mem_cons_self
      have htaken : start + (i - avail) + (w - (avail - i)) = start + (i + w - avail) := by omega
      have hread := h.mono (m := start + (i - avail) + (w - (avail - i))) (by omega)
      have hget := getBits_eq_peek (by omega) (readable_consume hread)
      rw [peek_consume, consume_add, htaken, Nat.add_zero] at hget
      rw [dataField_split s h6 (by omega) start]
      refine Op.bind_ok.2 ⟨_, _, hget, Op.bind_ok.2 ⟨_, _, ?_, rfl⟩⟩
      have hempty : avail - (i + w) = 0 := by omega
      rw [← hempty]
      exact hrest h

/-- Settles O3: the fields from the first data bit on. -/
theorem unpackReadsConsecutiveFields : Obligations.UnpackReadsConsecutiveFields := by
  intro s h6 t ws _ hw hread
  have h := unpackFrom_eq (h6 := h6) (avail := 6 - t) (start := 0) (i := 0) hw (by simpa using hread)
  simpa [unpack] using h

end Sys2Proof.Machine
end

section
/-! The encoder against the decoder's fields (30_encoding.md rules R73 to R75): the header's data bits and the body hold the
packed bit string, so each field reads back as its value. -/

namespace Sys2Proof.Machine

theorem testBit_ofBits (bs : List Bool) {i : Nat} (h : i < bs.length) :
    (ofBits bs).testBit (bs.length - 1 - i) = bs[i] := by
  have hbits := bitsOf_ofBits bs
  have hi : (bitsOf bs.length (ofBits bs))[i]'(by rwa [bitsOf_length]) = bs[i] := by simp only [hbits]
  rw [← hi]
  simp [bitsOf]

theorem follows_getElem {s : State} {start i : Nat} {bs : List Bool} (h : Follows s start bs) (hi : i < bs.length) :
    bitAt s (start + i) = bs[i] := by
  have hget : ((List.range bs.length).map fun k => bitAt s (start + k))[i]'(by simpa using hi) = bs[i] := by
    simp only [show (List.range bs.length).map (fun k => bitAt s (start + k)) = bs from h]
  rw [← hget]
  simp

theorem follows_append {s : State} {start : Nat} {xs ys : List Bool} (h : Follows s start (xs ++ ys)) :
    Follows s start xs ∧ Follows s (start + xs.length) ys := by
  constructor
  · refine List.ext_getElem (by simp) fun i hi hi' => ?_
    have hget := follows_getElem h (i := i) (by rw [List.length_append]; omega)
    rw [List.getElem_append_left hi'] at hget
    simpa using hget
  · refine List.ext_getElem (by simp) fun i hi hi' => ?_
    have hget := follows_getElem h (i := xs.length + i) (by rw [List.length_append]; omega)
    rw [List.getElem_append_right (by omega), ← Nat.add_assoc] at hget
    simpa using hget

/-- The header's six bits are the first bits of the string. -/
theorem getLsbD_headerBits (bs : List Bool) {i : Nat} (h : i < bs.length) (h' : i < 6) :
    (headerBits bs).getLsbD (5 - i) = bs[i] := by
  have hlen : (bs.take 6).length = min 6 bs.length := List.length_take
  have hget := testBit_ofBits (bs.take 6) (i := i) (by omega)
  rw [List.getElem_take] at hget
  rw [headerBits, BitVec.getLsbD_ofNat, decide_eq_true (by omega), Bool.true_and, Nat.testBit_mul_two_pow, ← hget,
    decide_eq_true (by omega), Bool.true_and]
  congr 1
  omega

/-- Behind a tag of `t` bits, the data bits of a packed header and its body are the packed string. -/
theorem dataBitAt_packed {s : State} {t start i : Nat} {bs : List Bool} (ht : t ≤ 6) (hbody : Follows s start (bs.drop 6))
    (hi : t + i < bs.length) : dataBitAt s (headerBits bs) (6 - t) start i = bs[t + i] := by
  unfold dataBitAt
  split
  · rw [← getLsbD_headerBits bs hi (by omega)]
    congr 1
    omega
  · have hget := follows_getElem hbody (i := i - (6 - t)) (by rw [List.length_drop]; omega)
    rw [hget, List.getElem_drop]
    congr 1
    omega

/-- A field of the packed string reads back as its value. -/
theorem dataField_packed {s : State} {t start i w v : Nat} {pre post : List Bool} (ht : t ≤ 6)
    (hbody : Follows s start ((pre ++ bitsOf w v ++ post).drop 6)) (hpre : pre.length = t + i) (hv : v < 2 ^ w) :
    dataField s (headerBits (pre ++ bitsOf w v ++ post)) (6 - t) start i w = v := by
  have hbits : (List.range w).map (fun k => dataBitAt s (headerBits (pre ++ bitsOf w v ++ post)) (6 - t) start (i + k)) =
      bitsOf w v := by
    refine List.ext_getElem (by simp [bitsOf_length]) fun k hk hk' => ?_
    have hlen := bitsOf_length w v
    rw [List.getElem_map, List.getElem_range, dataBitAt_packed ht hbody (by simp only [List.length_append]; omega)]
    rw [List.getElem_append_left (by simp only [List.length_append]; omega), List.getElem_append_right (by omega)]
    congr 1
    omega
  rw [dataField, hbits, ofBits_bitsOf hv]

/-- The fields of the packed string read back as their values. -/
theorem dataFields_packed {s : State} {t start i : Nat} {pre : List Bool} {fields : List (Nat × Nat)} (ht : t ≤ 6)
    (hbody : Follows s start ((pre ++ fields.flatMap fun f => bitsOf f.1 f.2).drop 6)) (hpre : pre.length = t + i)
    (hfields : ∀ f ∈ fields, f.2 < 2 ^ f.1) :
    dataFields s (headerBits (pre ++ fields.flatMap fun f => bitsOf f.1 f.2)) (6 - t) start i (fields.map Prod.fst) =
      fields.map Prod.snd := by
  induction fields generalizing i pre with
  | nil => rfl
  | cons f fields ih =>
    rw [List.flatMap_cons, ← List.append_assoc] at hbody ⊢
    rw [List.map_cons, List.map_cons, dataFields, dataField_packed ht hbody hpre (hfields f List.mem_cons_self)]
    congr 1
    exact ih hbody (by rw [List.length_append, bitsOf_length, hpre, Nat.add_assoc])
      fun f' hf' => hfields f' (List.mem_cons_of_mem f hf')

theorem packBits_length (t tag : Nat) (fields : List (Nat × Nat)) :
    (packBits t tag fields).length = t + (fields.map Prod.fst).sum := by
  simp [packBits, bitsOf_length, List.length_flatMap]

theorem encodeFields_body_length {t : Nat} (tag : Nat) (fields : List (Nat × Nat)) (ht : t ≤ 6) :
    (encodeFields t tag fields).body.length = (fields.map Prod.fst).sum - (6 - t) := by
  rw [encodeFields, List.length_drop, packBits_length]
  omega

/-- Settles O4: what `Unpack` reads are the fields of the packed string. -/
theorem packedFieldsUnpack : Obligations.PackedFieldsUnpack := by
  intro s t tag fields ht _ hfields hread hfollows
  have hwidths : ∀ w ∈ fields.map Prod.fst, w ≤ 32 := by
    intro w hw
    obtain ⟨f, hf, rfl⟩ := List.mem_map.1 hw
    exact (hfields f hf).1
  rw [encodeFields_body_length tag fields ht] at hread ⊢
  rw [unpackReadsConsecutiveFields s _ t _ ht hwidths hread]
  congr 1
  exact dataFields_packed ht hfollows (by rw [bitsOf_length, Nat.add_zero]) fun f hf => (hfields f hf).2

end Sys2Proof.Machine
end

section
/-! The requests of a command among its updates: an update beside the extractor does not see the bits taken, so a command's
state is its updates on the stream moved on. -/

namespace Sys2Proof.Machine

/-! Updates beside the extractor. -/

/-- The update neither reads nor writes p, W and c, nor writes the buffer or its bounds. -/
structure BesideStream (f : State → State) : Prop where
  setBfx : ∀ s p w c, f (s.setBfx p w c) = (f s).setBfx p w c
  buf : ∀ s, (f s).buf = s.buf
  endAddr : ∀ s, (f s).endAddr = s.endAddr
  size : ∀ s, (f s).size = s.size

namespace BesideStream

variable {f : State → State}

theorem extractor (hf : BesideStream f) (s : State) : (f s).p = s.p ∧ (f s).w = s.w ∧ (f s).c = s.c := by
  have h : f s = (f s).setBfx s.p s.w s.c := hf.setBfx s s.p s.w s.c
  exact ⟨(congrArg State.p h :), (congrArg State.w h :), (congrArg State.c h :)⟩

theorem consume (hf : BesideStream f) (s : State) (n : Nat) : Machine.consume (f s) n = f (Machine.consume s n) := by
  obtain ⟨hp, hw, hc⟩ := hf.extractor s
  unfold Machine.consume
  simp only [hp, hw, hc, hf.buf]
  split
  · rw [hf.setBfx]
  · rw [hf.setBfx]

theorem bitAt (hf : BesideStream f) (s : State) (i : Nat) : Machine.bitAt (f s) i = Machine.bitAt s i := by
  obtain ⟨hp, hw, hc⟩ := hf.extractor s
  simp only [Machine.bitAt, hp, hw, hc, hf.buf]

theorem peek (hf : BesideStream f) (s : State) (i n : Nat) : Machine.peek (f s) i n = Machine.peek s i n := by
  simp only [Machine.peek, hf.bitAt]

theorem dataField (hf : BesideStream f) (s : State) (h6 : BitVec 6) (avail start i w : Nat) :
    Machine.dataField (f s) h6 avail start i w = Machine.dataField s h6 avail start i w := by
  simp only [Machine.dataField, dataBitAt, hf.bitAt]

theorem dataFields (hf : BesideStream f) (s : State) (h6 : BitVec 6) (avail start i : Nat) (ws : List Nat) :
    Machine.dataFields (f s) h6 avail start i ws = Machine.dataFields s h6 avail start i ws := by
  induction ws generalizing i with
  | nil => rfl
  | cons w ws ih => rw [Machine.dataFields, Machine.dataFields, hf.dataField, ih]

theorem readable (hf : BesideStream f) {s : State} {n : Nat} (h : Readable s n) : Readable (f s) n := by
  obtain ⟨hp, -, hc⟩ := hf.extractor s
  simp only [Readable, hp, hc, hf.endAddr, hf.size]
  exact h

variable {s : State} {a n : Nat}

/-- A request behind `a` bits taken and updates made. -/
theorem getBits (hf : BesideStream f) (hn : n ≤ 32) (h : Readable s (a + n)) :
    Machine.getBits n (f (Machine.consume s a)) = .ok (Machine.peek s a n) (f (Machine.consume s (a + n))) := by
  rw [getBits_eq_peek hn (hf.readable (readable_consume h)), hf.peek, peek_consume, Nat.add_zero, hf.consume, consume_add]

/-- Unpacking behind `a` bits taken and updates made. -/
theorem unpack (hf : BesideStream f) {h6 : BitVec 6} {t : Nat} {ws : List Nat} (hw : ∀ w ∈ ws, w ≤ 32)
    (h : Readable s (a + (ws.sum - (6 - t)))) :
    Machine.unpack h6 t ws (f (Machine.consume s a)) =
      .ok (Machine.dataFields s h6 (6 - t) a 0 ws) (f (Machine.consume s (a + (ws.sum - (6 - t))))) := by
  have hread := unpackFrom_eq (h6 := h6) (avail := 6 - t) (start := a) (i := 0) hw
    (hf.readable (by rwa [Nat.zero_add]))
  rw [Nat.zero_add, Nat.zero_sub, Nat.add_zero, hf.consume, hf.consume, hf.dataFields] at hread
  exact hread

end BesideStream

theorem dataField_consume (s : State) (n : Nat) (h6 : BitVec 6) (avail start i w : Nat) :
    dataField (consume s n) h6 avail start i w = dataField s h6 avail (n + start) i w := by
  simp only [dataField, dataBitAt, bitAt_consume, Nat.add_assoc]

/-- What the stream's motion leaves: everything but the extractor. -/
theorem consume_eq_setBfx (s : State) (n : Nat) : ∃ p w c, consume s n = s.setBfx p w c := (consume_readTo s n).frame

@[simp] theorem consume_table (s : State) (n : Nat) (k : TableId) : (consume s n).table k = s.table k := by
  obtain ⟨p, w, c, hset⟩ := consume_eq_setBfx s n
  rw [hset, State.setBfx_table]

@[simp] theorem consume_pos (s : State) (n : Nat) : (consume s n).pos = s.pos := by
  obtain ⟨p, w, c, hset⟩ := consume_eq_setBfx s n
  rw [hset, State.setBfx_pos]

/-- A selection depends on the table alone. -/
theorem selects_of_table {s t : State} {k : TableId} {h6 : BitVec 6} {e : Entry} (h : Selects s k h6 e)
    (ht : t.table k = s.table k) : Selects t k h6 e := by
  obtain ⟨he, hlegal, hle⟩ := h
  refine ⟨?_, hlegal, hle⟩
  rw [← he]
  simp only [State.entryAt, ht]

/-! Field values. -/

theorem sext_eq_toInt {L v : Nat} (h : v < 2 ^ L) : sext L v = (BitVec.ofNat L v).toInt := by
  cases L with
  | zero => rw [BitVec.toInt_zero_length]; rfl
  | succ L =>
    have hhalf : 2 ^ (L + 1) = 2 * 2 ^ L := by ring
    have hcast : (2 : Int) ^ (L + 1) = ((2 ^ (L + 1) : Nat) : Int) := by push_cast; rfl
    rw [BitVec.toInt_eq_toNat_cond, BitVec.toNat_ofNat, Nat.mod_eq_of_lt h, sext, if_neg (Nat.succ_ne_zero L),
      Nat.add_sub_cancel, hcast, hhalf]
    split <;> split <;> omega

theorem ofInt_mul_two_pow (n rs : Nat) (x : Int) : BitVec.ofInt n (x * 2 ^ rs) = BitVec.ofInt n x <<< rs := by
  have hcast : (2 : Int) ^ rs = ((2 ^ rs : Nat) : Int) := by push_cast; rfl
  rw [BitVec.ofInt_mul, BitVec.shiftLeft_eq_mul_twoPow, hcast, BitVec.ofInt_natCast]
  congr 1
  apply BitVec.eq_of_toNat_eq
  rw [BitVec.toNat_ofNat, BitVec.toNat_twoPow]

/-- A signed field's value in 16 bits: the extended field, shifted (30_encoding.md rule R78). -/
theorem wrap16_signedValue {L v : Nat} (rs : Nat) (h : v < 2 ^ L) : wrap16 (signedValue L rs v) = signed16 L rs v := by
  rw [wrap16, signedValue, sext_eq_toInt h, ofInt_mul_two_pow]
  rfl

end Sys2Proof.Machine
end

section
/-! Bundled normals (42_normal.md rule R151; 45_dispatch_control.md rule R213): a bundled part is the command on the promoted
state, and a command is a body, which the push bit does not reach, and a tail that pushes and sends. -/

namespace Sys2Proof.Machine

/-! The promotion of a subheader. -/

/-- CUR takes the promoted subheader and NXT the next fetch. -/
theorem besideStream_promote (cur nxt : Byte) : BesideStream fun u => (u.setCur cur).setNxt nxt :=
  ⟨fun _ _ _ _ => rfl, fun _ => rfl, fun _ => rfl, fun _ => rfl⟩

theorem promoted_eq (s : State) (cls : BitVec 2) (h6 : BitVec 6) (w : Nat) :
    promoted s cls h6 w = ((consume s w).setCur (cls ++ h6)).setNxt (BitVec.ofNat 8 (peek s 0 w)) := rfl

section
variable {s : State} {h6 : BitVec 6} {w : Nat} (cls : BitVec 2)

theorem fetchNext_promoted (hw : w ≤ 32) (h : Readable s w) :
    fetchNext w (s.setCur (cls ++ h6)) = .ok () (promoted s cls h6 w) := by
  refine fetchNext_ok.2 ⟨_, _, getBits_eq_peek hw h, ?_⟩
  rw [consume_setCur]
  rfl

theorem readable_promoted {n : Nat} (h : Readable s (w + n)) : Readable (promoted s cls h6 w) n :=
  (besideStream_promote (cls ++ h6) (BitVec.ofNat 8 (peek s 0 w))).readable (readable_consume h)

theorem dataField_promoted (avail start i n : Nat) :
    dataField (promoted s cls h6 w) h6 avail start i n = dataField s h6 avail (w + start) i n := by
  rw [promoted_eq, (besideStream_promote _ _).dataField, dataField_consume]

theorem consume_promoted (n : Nat) : consume (promoted s cls h6 w) n =
    ((consume s (w + n)).setCur (cls ++ h6)).setNxt (BitVec.ofNat 8 (peek s 0 w)) := by
  rw [promoted_eq, (besideStream_promote _ _).consume, consume_add]

theorem selects_promoted {k : TableId} {e : Entry} (h : Selects s k h6 e) : Selects (promoted s cls h6 w) k h6 e :=
  selects_of_table h (by rw [promoted_eq]; simp)

/-- The promotion writes CUR and NXT, and moves the stream. -/
theorem promoted_frame : ∃ p win c cur nxt, promoted s cls h6 w = ((s.setBfx p win c).setCur cur).setNxt nxt := by
  obtain ⟨p, win, c, hset⟩ := consume_eq_setBfx s w
  exact ⟨p, win, c, _, _, by rw [promoted_eq, hset]⟩

end

/-- A bundled normal is the normal command on the promoted state. -/
theorem exec_nrmSub_promoted {s : State} {h6 : BitVec 6} (mbp : Bool) (h : Readable s (if s.bc then 6 else 8)) :
    exec (.nrmSub h6 mbp) s =
      runOp (setNormalCommand h6 mbp) (promoted s 3#2 h6 (if s.bc then 6 else 8)) := by
  refine runOp_congr ?_
  rw [bundledNormal_promoted, Op.bind_eq, fetchNext_promoted _ (by split <;> decide) h]

/-- A bundled color is the color command on the promoted state. -/
theorem exec_colSub_promoted {s : State} {h6 : BitVec 6} (mbp : Bool) (h : Readable s 8) :
    exec (.colSub h6 mbp) s = runOp (setColorCommand h6 mbp) (promoted s 2#2 h6 8) := by
  refine runOp_congr ?_
  rw [bundledColor_promoted, Op.bind_eq, fetchNext_promoted _ (by decide) h]

/-! The tail of a command. -/

/-- Two commands with the same body, where the tail of the second leaves `push` of what that of the first leaves: they end in
the same error, and a completed second command in the pushed state. -/
theorem runOp_same_body {α : Type} {body : Op α} {tail tail' : α → Op Unit} {push : State → State} {P : Prop}
    {s t : State} (h : runOp (body >>= tail) s = .next t)
    (hbody : ∀ a v, body s = .ok a v →
      ∃ u, tail a v = .ok () u ∧ u.status = .run ∧ (P → tail' a v = .ok () (push u))) :
    (t.status ≠ .run → runOp (body >>= tail') s = .next t) ∧
      (t.status = .run → P → runOp (body >>= tail') s = .next (push t)) := by
  cases hb : body s with
  | error e v =>
    have hstop : ∀ tail'' : α → Op Unit, runOp (body >>= tail'') s = stopped e v := fun tail'' => by
      rw [runOp, Op.bind_eq, hb]
    rw [hstop] at h ⊢
    refine ⟨fun _ => h, fun hrun => ?_⟩
    cases e with
    | raise r i => cases h; cases hrun
    | noByte a => cases h
  | ok a v =>
    obtain ⟨u, hu, hstatus, hpush⟩ := hbody a v hb
    rw [runOp_ok (Op.bind_ok.2 ⟨a, v, hb, hu⟩)] at h
    cases h
    exact ⟨fun hne => absurd hstatus hne, fun _ hP => runOp_ok (Op.bind_ok.2 ⟨a, v, hb, hpush hP⟩)⟩

/-! Normals. -/

/-- The normal that a normal command's entry makes of its body (42_normal.md rules R142, R143). -/
def normalOf (h6 : BitVec 6) (e : Entry) : Op Normal :=
  if e.absolute then absoluteNormal h6 e else relativeNormal h6 e

/-- A normal command up to its push: it answers the normal it has written. -/
def normalBody (h6 : BitVec 6) : Op Normal := do
  update (·.clearUseMn)
  let e ← lookup .normal h6
  let n ← normalOf h6 e
  if !inDomain n.u n.v then raise .outOfDomain (.uv n.u n.v)
  update (·.setNormal n)
  return n

/-- The push and the event of a normal command (42_normal.md rules R151, R152). -/
def normalTail (mbp : Bool) (n : Normal) : Op Unit := do
  pushNormal mbp
  let s ← get
  if !s.bn then emit (.globalNormal (convert s.params n))

theorem setNormalCommand_eq (h6 : BitVec 6) (mbp : Bool) : setNormalCommand h6 mbp = normalBody h6 >>= normalTail mbp := by
  unfold setNormalCommand normalBody normalTail
  simp only [bind_assoc]
  congr 1; funext _; congr 1; funext e
  unfold normalOf
  split
  all_goals
    congr 1; funext n
    split <;> simp only [bind_assoc, pure_bind]

theorem normalOf_ok {h6 : BitVec 6} {e : Entry} {n : Normal} {s t : State} (h : normalOf h6 e s = .ok n t) :
    ∃ p w c, t = s.setBfx p w c := by
  unfold normalOf at h
  split at h
  · obtain ⟨fs, hfs, -⟩ := absoluteNormal_ok h
    exact (unpack_ok hfs).2
  · obtain ⟨fs, n0, hfs, -, -⟩ := relativeNormal_ok h
    exact (unpack_ok hfs).2

/-- The body of a normal, where its entry makes the normal `n` in the triangle. -/
theorem normalBody_eq {h6 : BitVec 6} {e : Entry} {n : Normal} {s u : State} (hsel : Selects s .normal h6 e)
    (hn : normalOf h6 e s.clearUseMn = .ok n u) (hdomain : inDomain n.u n.v = true) :
    normalBody h6 s = .ok n (u.setNormal n) := by
  have hlookup := lookup_selects (k := .normal) (s := s.clearUseMn) hsel
  simp [normalBody, Op.bind_eq, Op.map_eq, hlookup, hn, hdomain]

/-- What the body of a normal that completes writes. -/
theorem normalBody_ok {h6 : BitVec 6} {n : Normal} {s v : State} (h : normalBody h6 s = .ok n v) :
    ∃ p w c, v = (s.clearUseMn.setBfx p w c).setNormal n := by
  obtain ⟨_, _, hs, h⟩ := Op.bind_ok.1 h
  cases hs
  obtain ⟨e, _, hl, h⟩ := Op.bind_ok.1 h
  obtain ⟨-, -, rfl⟩ := lookup_ok.1 hl
  obtain ⟨n', u, hn, h⟩ := Op.bind_ok.1 h
  obtain ⟨p, w, c, rfl⟩ := normalOf_ok hn
  split at h
  · cases h
  · cases h
    exact ⟨p, w, c, rfl⟩

/-- With BN = 1 a normal command sends nothing (42_normal.md rule R152). -/
theorem normalTail_bundled (mbp : Bool) (n : Normal) {v : State} (h : v.bn = true) :
    normalTail mbp n v = .ok () (if mbp then v.setSlot v.wi { v.slot v.wi with normal := v.normal } else v) := by
  cases mbp <;> simp [normalTail, Op.bind_eq, h]

theorem normalTail_standalone (n : Normal) (v : State) :
    normalTail false n v = .ok () (if v.bn then v else v.emit (.globalNormal (convert v.params n))) := by
  cases h : v.bn <;> simp [normalTail, Op.bind_eq, h]

/-- The push that a bundled normal adds to the standalone command (42_normal.md rule R151). -/
theorem runOp_normal_push {h6 : BitVec 6} {s t : State} (hrun : s.status = .run)
    (h : runOp (setNormalCommand h6 false) s = .next t) :
    (t.status ≠ .run → runOp (setNormalCommand h6 true) s = .next t) ∧
      (t.status = .run → s.bn = true →
        runOp (setNormalCommand h6 true) s = .next (t.setSlot s.wi { s.slot s.wi with normal := t.normal })) := by
  rw [setNormalCommand_eq] at h ⊢
  refine runOp_same_body (push := fun u => u.setSlot s.wi { s.slot s.wi with normal := u.normal }) h fun n v hv => ?_
  obtain ⟨p, w, c, rfl⟩ := normalBody_ok hv
  refine ⟨_, normalTail_standalone n _, ?_, fun hbn => ?_⟩
  · split <;> exact hrun
  · have hkeep : ((s.clearUseMn.setBfx p w c).setNormal n).bn = true := hbn
    rw [normalTail_bundled true n hkeep, if_pos hkeep]
    rfl

/-! Absolute normals. -/

/-- The normal of an absolute entry whose body begins at stream bit `start` (42_normal.md rule R142). -/
def normalAt (s : State) (h6 : BitVec 6) (e : Entry) (start : Nat) : Normal :=
  let so := BitVec.ofNat 6 (dataField s h6 (6 - e.tagLength) start 0 6)
  { sex := so.extractLsb' 3 3, oct := so.extractLsb' 0 3
    u := (dataField s h6 (6 - e.tagLength) start 6 e.fieldLength * 2 ^ e.rightShift : Nat)
    v := (dataField s h6 (6 - e.tagLength) start (6 + e.fieldLength) e.fieldLength * 2 ^ e.rightShift : Nat) }

theorem inDomain_natCast {u v : Nat} (h : u + v ≤ 64) : inDomain u v = true := by
  simp [inDomain]
  omega

/-- The fields of an absolute normal take `t + 2 L` stream bits. -/
theorem absoluteNormal_eq {s : State} {h6 : BitVec 6} {e : Entry} {f : State → State} (hf : BesideStream f)
    (ht : e.tagLength ≤ 6) (hlen : e.fieldLength ≤ 32) (h : Readable s (e.tagLength + 2 * e.fieldLength)) :
    absoluteNormal h6 e (f s) = .ok (normalAt s h6 e 0) (f (consume s (e.tagLength + 2 * e.fieldLength))) := by
  have htaken : [6, e.fieldLength, e.fieldLength].sum - (6 - e.tagLength) = e.tagLength + 2 * e.fieldLength := by
    simp; omega
  have hread := hf.unpack (s := s) (a := 0) (h6 := h6) (t := e.tagLength) (ws := [6, e.fieldLength, e.fieldLength])
    (by simp; omega) (by rwa [htaken, Nat.zero_add])
  rw [htaken, Nat.zero_add, consume_zero] at hread
  rw [absoluteNormal, Op.bind_eq, hread]
  simp [normalAt, dataFields, fieldAt, unsignedValue]

/-- The body of an absolute normal in the triangle. -/
theorem normalBody_absolute {s : State} {h6 : BitVec 6} {e : Entry} (hsel : Selects s .normal h6 e)
    (habs : e.absolute = true) (h : Readable s (e.tagLength + 2 * e.fieldLength))
    (hdomain : inDomain (normalAt s h6 e 0).u (normalAt s h6 e 0).v = true) :
    normalBody h6 s = .ok (normalAt s h6 e 0)
      ((consume s (e.tagLength + 2 * e.fieldLength)).clearUseMn.setNormal (normalAt s h6 e 0)) := by
  have hlen := fieldLength_le_of_legal hsel.2.1
  have hclear : BesideStream State.clearUseMn := ⟨fun _ _ _ _ => rfl, fun _ => rfl, fun _ => rfl, fun _ => rfl⟩
  refine normalBody_eq hsel ?_ hdomain
  rw [normalOf, if_pos habs]
  exact absoluteNormal_eq hclear (tagLength_le_of_legal hsel.2.1) (by omega) h

theorem normalAt_promoted (s : State) (h6 : BitVec 6) (e : Entry) (cls : BitVec 2) (w : Nat) :
    normalAt (promoted s cls h6 w) h6 e 0 = normalAt s h6 e w := by
  simp only [normalAt, dataField_promoted, Nat.add_zero]

/-- Settles O37: the normal command on the promoted state, whose body completes and whose tail sends nothing. -/
theorem bundledNormalExecutes : Obligations.BundledNormalExecutes := by
  intro s h6 mbp e hsel habs hbn w hread avail so u v hdomain
  have hbody := normalBody_absolute (selects_promoted 3#2 (w := w) hsel) habs (readable_promoted 3#2 hread)
    (by rw [normalAt_promoted]; exact inDomain_natCast hdomain)
  rw [normalAt_promoted, consume_promoted] at hbody
  obtain ⟨p, win, c, hset⟩ := consume_eq_setBfx s (w + (e.tagLength + 2 * e.fieldLength))
  rw [hset] at hbody
  rw [exec_nrmSub_promoted mbp (hread.mono (Nat.le_add_right _ _)), setNormalCommand_eq]
  rw [runOp_ok (Op.bind_ok.2 ⟨_, _, hbody, normalTail_bundled mbp _ hbn⟩), normalSet, hset, if_pos hbn]
  cases mbp <;> rfl

end Sys2Proof.Machine
end

section
/-! Bundled colors (43_color.md rules R174 to R176), and the bundled parts against the standalone commands. -/

namespace Sys2Proof.Machine

/-- A color command up to its push. -/
def colorBody (h6 : BitVec 6) : Op Unit := do
  update (·.clearUseMc)
  let e ← lookup .color h6
  let fs ← unpack h6 e.tagLength (List.replicate (channelCount (← get).ba) e.fieldLength)
  accumulateColor e fs

/-- The push and the event of a color command (43_color.md rules R176, R177). -/
def colorTail (mbp : Bool) : Op Unit := do
  pushColor mbp
  if !(← get).bc then
    let c ← colorOut
    emit (.globalColor c)

theorem setColorCommand_eq (h6 : BitVec 6) (mbp : Bool) :
    setColorCommand h6 mbp = colorBody h6 >>= fun _ => colorTail mbp := by
  simp only [setColorCommand, colorBody, colorTail, bind_assoc]

/-- What the body of a color that completes leaves: C is there, A with BA = 1, and the registers of the push are those of
before. -/
structure ColorBodyFrame (s v : State) : Prop where
  status : v.status = s.status
  bc : v.bc = s.bc
  wi : v.wi = s.wi
  vc : v.vc = s.vc
  pos : v.pos = s.pos
  normal : v.normal = s.normal
  color : ∃ c, v.color = some c
  alpha : v.ba = true → ∃ a, v.alpha = some a

theorem colorBody_frame {h6 : BitVec 6} {s v : State} {x : Unit} (h : colorBody h6 s = .ok x v) : ColorBodyFrame s v := by
  obtain ⟨_, _, hs, h⟩ := Op.bind_ok.1 h
  cases hs
  obtain ⟨e, _, hl, h⟩ := Op.bind_ok.1 h
  obtain ⟨-, -, rfl⟩ := lookup_ok.1 hl
  obtain ⟨_, _, hs, h⟩ := Op.bind_ok.1 h
  cases hs
  obtain ⟨fs, u, hfs, h⟩ := Op.bind_ok.1 h
  obtain ⟨p, w, c, rfl⟩ := (unpack_ok hfs).2
  obtain ⟨col, rfl, -⟩ := accumulateColor_ok h
  split
  · exact ⟨rfl, rfl, rfl, rfl, rfl, rfl, ⟨_, rfl⟩, fun _ => ⟨_, rfl⟩⟩
  · next hba => exact ⟨rfl, rfl, rfl, rfl, rfl, rfl, ⟨_, rfl⟩, fun h => absurd h hba⟩

/-- With BC = 1 a color command sends nothing (43_color.md rule R177). -/
theorem colorTail_bundled (mbp : Bool) {v : State} (h : v.bc = true) :
    colorTail mbp v =
      .ok () (if mbp then v.setSlot v.wi { v.slot v.wi with color := v.color, alpha := v.alpha } else v) := by
  cases mbp <;> simp [colorTail, Op.bind_eq, h]

/-- The color that a body leaves can be sent. -/
theorem colorTail_standalone {s v : State} (h : ColorBodyFrame s v) :
    ∃ u, colorTail false v = .ok () u ∧ u.status = s.status ∧ (v.bc = true → u = v) := by
  cases hbc : v.bc with
  | true => exact ⟨v, colorTail_bundled false hbc, h.status, fun _ => rfl⟩
  | false =>
    obtain ⟨c, hc⟩ := h.color
    have hout : ∃ value, colorOut v = .ok value v := by
      cases hba : v.ba with
      | false => exact ⟨_, colorOut_ok.2 ⟨rfl, c, hc, .inr ⟨hba, rfl⟩⟩⟩
      | true =>
        obtain ⟨a, ha⟩ := h.alpha hba
        exact ⟨_, colorOut_ok.2 ⟨rfl, c, hc, .inl ⟨hba, a, ha, rfl⟩⟩⟩
    obtain ⟨value, hout⟩ := hout
    refine ⟨v.emit (.globalColor value), ?_, h.status, fun hno => by cases hno⟩
    simp [colorTail, Op.bind_eq, hbc, hout]

/-- The push that a bundled color adds to the standalone command (43_color.md rule R176). -/
theorem runOp_color_push {h6 : BitVec 6} {s t : State} (hrun : s.status = .run)
    (h : runOp (setColorCommand h6 false) s = .next t) :
    (t.status ≠ .run → runOp (setColorCommand h6 true) s = .next t) ∧
      (t.status = .run → s.bc = true → runOp (setColorCommand h6 true) s =
        .next (t.setSlot s.wi { s.slot s.wi with color := t.color, alpha := t.alpha })) := by
  rw [setColorCommand_eq] at h ⊢
  refine runOp_same_body (push := fun u => u.setSlot s.wi { s.slot s.wi with color := u.color, alpha := u.alpha }) h
    fun _ v hv => ?_
  have hframe := colorBody_frame hv
  obtain ⟨u, hu, hstatus, hquiet⟩ := colorTail_standalone hframe
  refine ⟨u, hu, hstatus.trans hrun, fun hbc => ?_⟩
  have hbc' := hframe.bc.trans hbc
  rw [hquiet hbc', colorTail_bundled true hbc', hframe.wi, slot_of_vc hframe.vc]
  rfl

/-- Settles O38: a bundled part is the standalone command on the promoted state, and then a push. -/
theorem bundledPartsRunAsStandalone : Obligations.BundledPartsRunAsStandalone := by
  intro s t h6 hrun
  refine ⟨fun hread h => ?_, fun hread h => ?_⟩
  · rw [exec_nrmSub_promoted false hread, exec_nrmSub_promoted true hread]
    obtain ⟨p, w, c, cur, nxt, hset⟩ := promoted_frame (s := s) (h6 := h6) (w := if s.bc then 6 else 8) 3#2
    rw [hset] at h ⊢
    exact ⟨h, runOp_normal_push (s := ((s.setBfx p w c).setCur cur).setNxt nxt) hrun h⟩
  · rw [exec_colSub_promoted false hread, exec_colSub_promoted true hread]
    obtain ⟨p, w, c, cur, nxt, hset⟩ := promoted_frame (s := s) (h6 := h6) (w := 8) 2#2
    rw [hset] at h ⊢
    exact ⟨h, runOp_color_push (s := ((s.setBfx p w c).setCur cur).setNxt nxt) hrun h⟩

/-! The values of a color. -/

/-- Write C and, when BA = 1, A (43_color.md rule R175). -/
def State.setColorAlpha (s : State) (c : Color) (a : Word16) : State :=
  { s with color := some c, alpha := if s.ba then some a else s.alpha }

theorem State.setColorAlpha_eq (s : State) (c : Color) (a : Word16) :
    s.setColorAlpha c a = if s.ba then (s.setColor c).setAlpha a else s.setColor c := by
  unfold State.setColorAlpha
  split <;> rfl

/-- An accumulation whose values are there. -/
theorem accumulateColor_eq {e : Entry} {fs : List Nat} {s : State} {c0 : Color} {a0 : Word16}
    (h : e.absolute = false → s.color = some c0 ∧ (s.ba = true → s.alpha = some a0)) :
    accumulateColor e fs s = .ok () (
      let d : Color := ⟨channelValue e fs 0, channelValue e fs 1, channelValue e fs 2⟩
      s.setColorAlpha (if e.absolute then d else c0.add d)
        (if e.absolute then channelValue e fs 3 else a0 + channelValue e fs 3)) := by
  dsimp only
  rw [State.setColorAlpha_eq]
  cases habs : e.absolute with
  | true => cases hba : s.ba <;> simp [accumulateColor, Op.bind_eq, habs, hba]
  | false =>
    obtain ⟨hc, ha⟩ := h habs
    cases hba : s.ba with
    | false => simp [accumulateColor, Op.bind_eq, habs, hba, hc]
    | true => simp [accumulateColor, Op.bind_eq, habs, hba, hc, ha hba]

theorem channelValue_eq (s : State) (h6 : BitVec 6) (e : Entry) {n j : Nat} (h : j < n) :
    channelValue e (dataFields s h6 (6 - e.tagLength) 0 0 (List.replicate n e.fieldLength)) j = channelAt s h6 e 0 j := by
  rw [channelValue, fieldAt_dataFields_replicate _ _ _ _ _ _ h, Nat.zero_add,
    wrap16_signedValue _ (dataField_lt _ _ _ _ _ _)]
  rfl

/-- The body of a color command whose accumulators are there. -/
theorem colorBody_eq {s : State} {h6 : BitVec 6} {e : Entry} {c0 : Color} {a0 : Word16} (hsel : Selects s .color h6 e)
    (hthere : e.absolute = false → s.color = some c0 ∧ (s.ba = true → s.alpha = some a0))
    (h : Readable s ((if s.ba then 4 else 3) * e.fieldLength - (6 - e.tagLength))) :
    colorBody h6 s = .ok ()
      ((consume s ((if s.ba then 4 else 3) * e.fieldLength - (6 - e.tagLength))).clearUseMc.setColorAlpha
        (colorAfter s h6 e 0 c0) (alphaAfter s h6 e 0 a0)) := by
  have hlen := fieldLength_le_of_legal hsel.2.1
  have hclear : BesideStream State.clearUseMc := ⟨fun _ _ _ _ => rfl, fun _ => rfl, fun _ => rfl, fun _ => rfl⟩
  have hsum : (List.replicate (channelCount s.ba) e.fieldLength).sum = (if s.ba then 4 else 3) * e.fieldLength := by
    simp [channelCount]
  have hread := hclear.unpack (s := s) (a := 0) (h6 := h6) (t := e.tagLength)
    (ws := List.replicate (channelCount s.ba) e.fieldLength) (fun w hw => by rw [List.eq_of_mem_replicate hw]; omega)
    (by rwa [hsum, Nat.zero_add])
  rw [hsum, Nat.zero_add, consume_zero] at hread
  obtain ⟨p, w, c, hset⟩ := consume_eq_setBfx s ((if s.ba then 4 else 3) * e.fieldLength - (6 - e.tagLength))
  rw [hset] at hread ⊢
  refine Op.bind_ok.2 ⟨(), s.clearUseMc, rfl, Op.bind_ok.2 ⟨e, _, lookup_selects hsel, ?_⟩⟩
  refine Op.bind_ok.2 ⟨_, _, rfl, Op.bind_ok.2 ⟨_, _, hread, ?_⟩⟩
  have hchannel : ∀ j < channelCount s.ba, channelValue e
      (dataFields s h6 (6 - e.tagLength) 0 0 (List.replicate (channelCount s.ba) e.fieldLength)) j =
      channelAt s h6 e 0 j := fun j hj => channelValue_eq s h6 e hj
  have hcount : 3 ≤ channelCount s.ba := by unfold channelCount; split <;> omega
  rw [accumulateColor_eq (s := (s.setBfx p w c).clearUseMc) hthere, hchannel 0 (by omega), hchannel 1 (by omega),
    hchannel 2 (by omega)]
  simp only [State.setColorAlpha_eq]
  cases hba : s.ba with
  | false => simp [hba]; rfl
  | true =>
    rw [hba] at hchannel
    simp [hba, hchannel 3 (by decide)]
    rfl

section
variable (s : State) (h6 : BitVec 6) (e : Entry) (cls : BitVec 2) (w : Nat)

theorem channelAt_promoted (j : Nat) : channelAt (promoted s cls h6 w) h6 e 0 j = channelAt s h6 e w j := by
  simp only [channelAt, dataField_promoted, Nat.add_zero]

theorem colorAfter_promoted (c0 : Color) : colorAfter (promoted s cls h6 w) h6 e 0 c0 = colorAfter s h6 e w c0 := by
  simp only [colorAfter, channelAt_promoted]

theorem alphaAfter_promoted (a0 : Word16) : alphaAfter (promoted s cls h6 w) h6 e 0 a0 = alphaAfter s h6 e w a0 := by
  simp only [alphaAfter, channelAt_promoted]

end

/-- Settles O40: the color command on the promoted state, whose body completes and whose tail sends nothing. -/
theorem bundledColorExecutes : Obligations.BundledColorExecutes := by
  intro s h6 mbp e c0 a0 hsel hbc hthere taken hread
  obtain ⟨_, _, _, _, _, hframe⟩ := promoted_frame (s := s) (h6 := h6) (w := 8) 2#2
  have hba : (promoted s 2#2 h6 8).ba = s.ba := by rw [hframe]; rfl
  have hbody := colorBody_eq (s := promoted s 2#2 h6 8) (c0 := c0) (a0 := a0) (selects_promoted 2#2 hsel)
    (by rw [hframe]; exact hthere) (by rw [hba]; exact readable_promoted 2#2 hread)
  obtain ⟨p, win, c, hset⟩ := consume_eq_setBfx s (8 + taken)
  rw [hba, consume_promoted, hset, colorAfter_promoted, alphaAfter_promoted] at hbody
  rw [exec_colSub_promoted mbp (hread.mono (Nat.le_add_right _ _)), setColorCommand_eq]
  rw [runOp_ok (Op.bind_ok.2 ⟨_, _, hbody, colorTail_bundled mbp (by exact hbc)⟩), colorSet, hset, if_pos hbc]
  cases mbp <;> rfl

end Sys2Proof.Machine
end

section
/-! The position part of a vertex (30_encoding.md rule R80; 41_vertex.md rule R120): the whole state after it, the emission,
and the unbundled vertex. -/

namespace Sys2Proof.Machine

/-! The replace code and the coordinates. -/

theorem spareBits_toNat (e : Entry) : (spareBits e).toNat = 6 - (e.tagLength + 3 * e.fieldLength) := by
  unfold spareBits
  omega

section
variable {f : State → State} {s : State} {h6 : BitVec 6} {e : Entry} {a : Nat}

/-- 30_encoding.md rule R80: the replace code and push bit are the data bits behind the fields, or the body's first bits
where the fields leave no data bit. -/
theorem replaceAndPush_eq (hf : BesideStream f) (hfit : 3 ≤ e.tagLength + 3 * e.fieldLength)
    (h : Readable s (a + (3 - (spareBits e).toNat))) :
    replaceAndPush h6 e (f (consume s a)) =
      .ok (vertexRm s h6 e a) (f (consume s (a + (3 - (spareBits e).toNat)))) := by
  rw [replaceAndPush, Op.bind_eq, hf.getBits (by omega) h]
  dsimp only [Op.pure_eq]
  congr 1
  rw [spareBits_toNat, vertexRm]
  split
  · next hspare =>
    have hleft : 6 - e.tagLength - 3 * e.fieldLength = 6 - (e.tagLength + 3 * e.fieldLength) := by omega
    rw [dataField_split s h6 (by omega), hleft, show 3 * e.fieldLength - (6 - e.tagLength) = 0 by omega, Nat.add_zero]
  · rw [show 6 - (e.tagLength + 3 * e.fieldLength) = 0 by omega, bitField_zero, Nat.zero_mul, Nat.zero_add]

/-- The coordinates of the fields, wherever the stream stands where the header holds them all. -/
theorem axisValue_eq {start j : Nat} (hstart : start = a + 3 ∨ e.tagLength + 3 * e.fieldLength ≤ 6) (hj : j < 3) :
    axisValue e (dataFields s h6 (6 - e.tagLength) start 0 [e.fieldLength, e.fieldLength, e.fieldLength]) j =
      vertexAxis s h6 e a j := by
  have hfield : dataField s h6 (6 - e.tagLength) start (j * e.fieldLength) e.fieldLength =
      dataField s h6 (6 - e.tagLength) (a + 3) (j * e.fieldLength) e.fieldLength := by
    rcases hstart with rfl | hheader
    · rfl
    · refine dataField_congr_start s h6 ?_ _ _
      have hmul : (j + 1) * e.fieldLength ≤ 3 * e.fieldLength := Nat.mul_le_mul_right _ hj
      rw [Nat.succ_mul] at hmul
      omega
  have hat := fieldAt_dataFields_replicate s h6 (6 - e.tagLength) start 0 e.fieldLength hj
  rw [Nat.zero_add, hfield] at hat
  rw [axisValue, show [e.fieldLength, e.fieldLength, e.fieldLength] = List.replicate 3 e.fieldLength from rfl, hat,
    wrap16_signedValue _ (dataField_lt _ _ _ _ _ _)]
  rfl

end

/-- An accumulation whose position is there (41_vertex.md rule R125). -/
theorem accumulatePosition_eq {e : Entry} {fs : List Nat} {s : State} {p0 : Position}
    (h : e.absolute = false → s.pos = some p0) :
    accumulatePosition e fs s = .ok () (
      let d : Position := ⟨axisValue e fs 0, axisValue e fs 1, axisValue e fs 2⟩
      s.setPos (if e.absolute then d else p0.add d)) := by
  cases habs : e.absolute with
  | true => simp [accumulatePosition, habs]
  | false => simp [accumulatePosition, Op.bind_eq, habs, h habs]

/-! The position part. -/

/-- The state after a position part, as the updates that make it. -/
theorem positioned_eq (s : State) (h6 : BitVec 6) (e : Entry) (w : Nat) (p0 : Position) :
    positioned s h6 e w p0 =
      let r := ((((consume s (w + (e.tagLength + 3 * e.fieldLength - 3))).setNxt
        (BitVec.ofNat 8 (peek s 0 w))).clearMeshUse).setRep ((vertexRm s h6 e w).extractLsb' 1 2)).setPos
          (vertexPos s h6 e w p0)
      if (vertexRm s h6 e w).getLsbD 0 then r.pushPosition else r := by
  obtain ⟨p, win, c, hset⟩ := consume_eq_setBfx s (w + (e.tagLength + 3 * e.fieldLength - 3))
  rw [positioned, hset]
  generalize vertexRm s h6 e w = rm
  generalize vertexPos s h6 e w p0 = q
  generalize BitVec.ofNat 8 (peek s 0 w) = b
  dsimp only
  cases rm.getLsbD 0 with
  | false => rfl
  | true =>
    simp only [State.pushPosition, State.setSlot, State.slot, State.setWi, State.setPos, State.setRep, State.clearMeshUse,
      State.setNxt, State.setBfx, if_true]

/-- The position part of a vertex after a lookahead fetch of `w` bits. -/
theorem vertexPosition_eq {s : State} {h6 : BitVec 6} {e : Entry} {w : Nat} {p0 : Position}
    (hsel : Selects s .position h6 e) (hfit : 3 ≤ e.tagLength + 3 * e.fieldLength)
    (hpos : e.absolute = false → s.pos = some p0) (h : Readable s (w + (e.tagLength + 3 * e.fieldLength - 3))) :
    vertexPosition h6 ((consume s w).setNxt (BitVec.ofNat 8 (peek s 0 w))) =
      .ok ((vertexRm s h6 e w).getLsbD 0) (positioned s h6 e w p0) := by
  have hlen := fieldLength_le_of_legal hsel.2.1
  have htag := tagLength_le_of_legal hsel.2.1
  have hspare := spareBits_toNat e
  have hsum : [e.fieldLength, e.fieldLength, e.fieldLength].sum = 3 * e.fieldLength := by simp; omega
  have hend : w + (3 - (spareBits e).toNat) + (3 * e.fieldLength - (6 - e.tagLength)) =
      w + (e.tagLength + 3 * e.fieldLength - 3) := by omega
  have hclear : BesideStream fun u => (u.setNxt (BitVec.ofNat 8 (peek s 0 w))).clearMeshUse :=
    ⟨fun _ _ _ _ => rfl, fun _ => rfl, fun _ => rfl, fun _ => rfl⟩
  have hrep : BesideStream fun u => ((u.setNxt (BitVec.ofNat 8 (peek s 0 w))).clearMeshUse).setRep
      ((vertexRm s h6 e w).extractLsb' 1 2) := ⟨fun _ _ _ _ => rfl, fun _ => rfl, fun _ => rfl, fun _ => rfl⟩
  have hrm := replaceAndPush_eq (h6 := h6) hclear hfit (h.mono (m := w + (3 - (spareBits e).toNat)) (by omega))
  have hfields := hrep.unpack (s := s) (a := w + (3 - (spareBits e).toNat)) (h6 := h6) (t := e.tagLength)
    (ws := [e.fieldLength, e.fieldLength, e.fieldLength]) (by simp; omega) (by rw [hsum, hend]; exact h)
  rw [hsum, hend] at hfields
  have haxis : ∀ j < 3, axisValue e (dataFields s h6 (6 - e.tagLength) (w + (3 - (spareBits e).toNat)) 0
      [e.fieldLength, e.fieldLength, e.fieldLength]) j = vertexAxis s h6 e w j :=
    fun j hj => axisValue_eq (by omega) hj
  have hlookup : Selects ((consume s w).setNxt (BitVec.ofNat 8 (peek s 0 w))).clearMeshUse .position h6 e :=
    selects_of_table hsel (by simp)
  have haccumulate := accumulatePosition_eq (e := e) (fs := dataFields s h6 (6 - e.tagLength)
    (w + (3 - (spareBits e).toNat)) 0 [e.fieldLength, e.fieldLength, e.fieldLength])
    (s := (((consume s (w + (e.tagLength + 3 * e.fieldLength - 3))).setNxt
      (BitVec.ofNat 8 (peek s 0 w))).clearMeshUse).setRep ((vertexRm s h6 e w).extractLsb' 1 2)) (by simpa using hpos)
  rw [haxis 0 (by decide), haxis 1 (by decide), haxis 2 (by decide)] at haccumulate
  have hover : ¬ 3 < spareBits e := fun hover => absurd (three_lt_spareBits.1 hover) (by omega)
  simp only [vertexPosition, Op.bind_eq, update_eq, lookup_selects hlookup, hover, if_false, hrm, hfields, haccumulate,
    positioned_eq]
  cases (vertexRm s h6 e w).getLsbD 0 <;> rfl

/-! The emission and the unbundled vertex. -/

/-- A vertex whose parts are there is emitted (45_dispatch_control.md rules R216, R217). -/
theorem emitVertex_eq {s : State} {p : Position} {n : Normal} {c : Color} {a : Word16} (h : Emits s p n c a) :
    emitVertex s = .ok () (emitted s p n c a) := by
  obtain ⟨hp, hn, hc, ha⟩ := h
  have hnormal : vertexNormal s = .ok (if s.bn then some (convert s.params n) else none) s := by
    cases hbn : s.bn with
    | false => exact vertexNormal_ok.2 ⟨rfl, .inr ⟨hbn, rfl⟩⟩
    | true => exact vertexNormal_ok.2 ⟨rfl, .inl ⟨hbn, n, hn hbn, rfl⟩⟩
  have hcolor : vertexColor s = .ok (if s.bc then some (colorValue s c a) else none) s := by
    cases hbc : s.bc with
    | false => exact vertexColor_ok.2 ⟨rfl, .inr ⟨hbc, rfl⟩⟩
    | true =>
      refine vertexColor_ok.2 ⟨rfl, .inl ⟨hbc, _, colorOut_ok.2 ⟨rfl, c, hc hbc, ?_⟩, rfl⟩⟩
      cases hba : s.ba with
      | false => exact .inr ⟨rfl, by simp [colorValue, Color.toFloats, hba]⟩
      | true => exact .inl ⟨rfl, a, ha ⟨hbc, hba⟩, by simp [colorValue, Color.toFloats, hba]⟩
  exact emitVertex_ok.2 ⟨p, _, _, hp, hnormal, hcolor, rfl⟩

/-- The lookahead fetch of a command that begins with one. -/
theorem fetchNext_first {s : State} {w : Nat} (hw : w ≤ 32) (h : Readable s w) :
    fetchNext w s = .ok () ((consume s w).setNxt (BitVec.ofNat 8 (peek s 0 w))) :=
  fetchNext_ok.2 ⟨_, _, getBits_eq_peek hw h, rfl⟩

theorem vertexStep_unbundled {s : State} {h6 : BitVec 6} {e : Entry} {p0 : Position} (n : Normal) (c : Color) (a : Word16)
    (hsel : Selects s .position h6 e) (hfit : 3 ≤ e.tagLength + 3 * e.fieldLength) (hbn : s.bn = false)
    (hbc : s.bc = false) (hpos : e.absolute = false → s.pos = some p0)
    (h : Readable s (8 + (e.tagLength + 3 * e.fieldLength - 3))) :
    vertexStep h6 s = .ok () (emitted (positioned s h6 e 8 p0) (vertexPos s h6 e 8 p0) n c a) := by
  have hflags : (positioned s h6 e 8 p0).bn = false ∧ (positioned s h6 e 8 p0).bc = false := by
    obtain ⟨p, win, c, hset⟩ := consume_eq_setBfx s (8 + (e.tagLength + 3 * e.fieldLength - 3))
    rw [positioned, hset]
    exact ⟨hbn, hbc⟩
  have hemits : Emits (positioned s h6 e 8 p0) (vertexPos s h6 e 8 p0) n c a :=
    ⟨rfl, by simp [hflags], by simp [hflags], by simp [hflags]⟩
  refine Op.bind_ok.2 ⟨s, s, rfl, ?_⟩
  simp only [hbn, hbc]
  refine Op.bind_ok.2 ⟨(), _, fetchNext_first (by decide) (h.mono (Nat.le_add_right _ _)), ?_⟩
  exact Op.bind_ok.2 ⟨_, _, vertexPosition_eq hsel hfit hpos h, emitVertex_eq hemits⟩

end Sys2Proof.Machine
end

section
/-! A vertex that the encoder packed (30_encoding.md rule R80) executes to its coordinates. -/

namespace Sys2Proof.Machine

theorem peek_of_follows {s : State} {i : Nat} {bs : List Bool} (h : Follows s i bs) : peek s i bs.length = ofBits bs :=
  congrArg ofBits h

theorem encodeVertex_body_length {t : Nat} (tag L x y z rm : Nat) (h : 3 ≤ t + 3 * L) :
    (encodeVertex t tag L x y z rm).body.length = t + 3 * L - 3 := by
  have hpack : (packBits t tag [(L, x), (L, y), (L, z)]).length = t + 3 * L := by
    rw [packBits_length]
    simp
    omega
  unfold encodeVertex
  dsimp only
  split
  · rw [List.length_drop, List.length_append, hpack, bitsOf_length]
    omega
  · rw [List.length_append, List.length_drop, hpack, bitsOf_length]
    omega

/-- The packed fields read back where `VTX` looks for them: the coordinates behind the 3 bits of `rm` where they leave the
header, `rm` behind the fields where they leave data bits, else first in the body. -/
theorem encodeVertex_fields {s : State} {t tag L x y z rm start : Nat} (ht : t ≤ 6) (hx : x < 2 ^ L) (hy : y < 2 ^ L)
    (hz : z < 2 ^ L) (hrm : rm < 8) (hbody : Follows s start (encodeVertex t tag L x y z rm).body) :
    let h6 := (encodeVertex t tag L x y z rm).h6
    (dataField s h6 (6 - t) (start + 3) (0 * L) L = x ∧ dataField s h6 (6 - t) (start + 3) (1 * L) L = y ∧
      dataField s h6 (6 - t) (start + 3) (2 * L) L = z) ∧
    (if t + 3 * L < 6 then dataField s h6 (6 - t) start (3 * L) 3 else peek s start 3) = rm := by
  have htwo : 2 * L = L + L := by omega
  unfold encodeVertex at hbody ⊢
  by_cases hspare : t + 3 * L < 6
  · simp only [if_pos hspare] at hbody ⊢
    have hstring : packBits t tag [(L, x), (L, y), (L, z)] ++ bitsOf 3 rm =
        bitsOf t tag ++ [(L, x), (L, y), (L, z), (3, rm)].flatMap fun f => bitsOf f.1 f.2 := by simp [packBits]
    rw [hstring] at hbody ⊢
    have hfields := dataFields_packed (i := 0) ht hbody (bitsOf_length t tag) (by simp [hx, hy, hz]; omega)
    simp only [List.map_cons, List.map_nil, dataFields, List.cons.injEq, Nat.zero_add, and_true] at hfields
    obtain ⟨hx', hy', hz', hrm'⟩ := hfields
    have hthree : 3 * L = L + L + L := by omega
    have hheader : ∀ h6 i, i + L ≤ 6 - t →
        dataField s h6 (6 - t) (start + 3) i L = dataField s h6 (6 - t) start i L :=
      fun h6 i hi => dataField_congr_start s h6 (by omega) _ _
    rw [Nat.zero_mul, Nat.one_mul, htwo, hthree, hheader _ 0 (by omega), hheader _ L (by omega),
      hheader _ (L + L) (by omega)]
    exact ⟨⟨hx', hy', hz'⟩, hrm'⟩
  · simp only [if_neg hspare] at hbody ⊢
    obtain ⟨hfirst, hrest⟩ := follows_append hbody
    rw [bitsOf_length] at hrest
    have hfields := dataFields_packed (i := 0) ht hrest (bitsOf_length t tag) (by simp [hx, hy, hz])
    simp only [List.map_cons, List.map_nil, dataFields, List.cons.injEq, Nat.zero_add, and_true] at hfields
    have hpeek := peek_of_follows hfirst
    rw [bitsOf_length, ofBits_bitsOf hrm] at hpeek
    rw [Nat.zero_mul, Nat.one_mul, htwo]
    exact ⟨hfields, hpeek⟩

/-- The parts of `rm`: the replace code and the push bit (30_encoding.md rule R80). -/
theorem rm_parts : ∀ rm < 8, (BitVec.ofNat 3 rm).extractLsb' 1 2 = BitVec.ofNat 2 (rm / 2) ∧
    (BitVec.ofNat 3 rm).getLsbD 0 = decide (rm % 2 = 1) := by decide

theorem vertexRm_packed {s : State} {h6 : BitVec 6} {e : Entry} {start rm : Nat}
    (h : (if e.tagLength + 3 * e.fieldLength < 6 then
      dataField s h6 (6 - e.tagLength) start (3 * e.fieldLength) 3 else peek s start 3) = rm) :
    vertexRm s h6 e start = BitVec.ofNat 3 rm := by
  rw [← h, vertexRm]
  split <;> rfl

theorem vertexPos_packed {s : State} {h6 : BitVec 6} {e : Entry} {start x y z : Nat} (p0 : Position)
    (habs : e.absolute = true)
    (hx : dataField s h6 (6 - e.tagLength) (start + 3) (0 * e.fieldLength) e.fieldLength = x)
    (hy : dataField s h6 (6 - e.tagLength) (start + 3) (1 * e.fieldLength) e.fieldLength = y)
    (hz : dataField s h6 (6 - e.tagLength) (start + 3) (2 * e.fieldLength) e.fieldLength = z) :
    vertexPos s h6 e start p0 = ⟨signed16 e.fieldLength e.rightShift x, signed16 e.fieldLength e.rightShift y,
      signed16 e.fieldLength e.rightShift z⟩ := by
  simp only [vertexPos, vertexAxis, habs, if_true, hx, hy, hz]

theorem positioned_bitpos (s : State) (h6 : BitVec 6) (e : Entry) (w : Nat) (p0 : Position) :
    (positioned s h6 e w p0).bitpos = s.bitpos + (w + (e.tagLength + 3 * e.fieldLength - 3) : Nat) :=
  (consume_readTo s _).bitpos

/-- Settles O5: the unbundled vertex, whose replace code, push bit and coordinates are the packed ones. -/
theorem packedVertexExecutes : Obligations.PackedVertexExecutes := by
  intro s e tag x y z rm _ hx hy hz hrm hfit packed hsel habs hbn hbc hread hfollows
  obtain ⟨⟨hx', hy', hz'⟩, hrm'⟩ := encodeVertex_fields (tagLength_le_of_legal hsel.2.1) hx hy hz hrm hfollows
  have hbody : packed.body.length = e.tagLength + 3 * e.fieldLength - 3 := encodeVertex_body_length _ _ _ _ _ _ hfit
  obtain ⟨hrep, hpush⟩ := rm_parts rm hrm
  rw [hbody] at hread ⊢
  have hexec := vertexStep_unbundled (p0 := default) default default default hsel hfit hbn hbc
    (fun hrel => by rw [habs] at hrel; cases hrel) hread
  refine ⟨_, runOp_ok hexec, ?_, ?_, ?_, ?_⟩
  · exact congrArg some (vertexPos_packed default habs hx' hy' hz')
  · rw [← hrep, ← vertexRm_packed hrm']
    rfl
  · have hwi : ∀ p n c a, (emitted (positioned s packed.h6 e 8 default) p n c a).wi =
        if (vertexRm s packed.h6 e 8).getLsbD 0 then s.wi + 1 else s.wi := fun _ _ _ _ => rfl
    rw [hwi, vertexRm_packed hrm', hpush]
    simp only [decide_eq_true_eq]
  · have hbitpos := positioned_bitpos s packed.h6 e 8 default
    rw [Nat.cast_add, ← Int.add_assoc] at hbitpos
    exact hbitpos

end Sys2Proof.Machine
end

section
/-! The header encoding in both directions (30_encoding.md rules R72 to R89). -/

namespace Sys2Proof

/-- Decoding undoes encoding, command by command over the few bits of its operands. -/
theorem decodeHeader_encode {i : Instr} (hwf : i.wellFormed = true) (hwidth : headerWidth i = 8) :
    decodeHeader (encode i) = i := by
  cases i with
  | nrm h6 => revert h6; decide
  | col h6 => revert h6; decide
  | vtx h6 => revert h6; decide
  | mbr k r1 => revert k r1; decide
  | sst x bn => revert x bn; decide
  | stb s a6 =>
    have h : ∀ (s : BitVec 2) (a6 : Bool), s ≠ 3#2 → decodeHeader (encode (.stb s a6)) = .stb s a6 := by decide
    exact h s a6 (by simpa [Instr.wellFormed] using hwf)
  | stbReservedSelect a6 => revert a6; decide
  | nrmSub | colSub => cases hwidth
  | eos | vnop | skip8 | pass => rfl
  | reserved02 | reserved03 | reserved04 | reserved05 | reserved06 | reserved09 | reserved0A | reserved0B | reserved0C
  | reserved0D | reserved0E | reserved0F => rfl

/-- Every header byte is the header of a command. -/
theorem encode_decodeHeader : ∀ h : Byte, encode (decodeHeader h) = h ∧ (decodeHeader h).wellFormed = true := by decide

/-- A subheader stands zero-extended to 8 bits. -/
theorem setWidth_subheader : ∀ sub : BitVec 6, ((0#2 ++ sub : Byte)).setWidth 6 = sub := by decide

/-- Settles O6, from the two directions and the zero extension of a subheader. -/
theorem headersDecodeAndEncode : Obligations.HeadersDecodeAndEncode :=
  ⟨fun _ => decodeHeader_encode, encode_decodeHeader, fun sub _ => ⟨setWidth_subheader sub, setWidth_subheader sub⟩⟩

/-- Settles O7: twelve headers, decoded. -/
theorem writtenHeadersDecode : Obligations.WrittenHeadersDecode := by
  unfold Obligations.WrittenHeadersDecode
  decide

end Sys2Proof
end

section
/-! The commands that set state, skip bits, or are reserved: the whole state after them. -/

namespace Sys2Proof.Machine

/-! Bits and fields of a body. -/

/-- The `j`-th of `n` bits of a body. -/
theorem testBit_peek (s : State) (i : Nat) {n j : Nat} (h : j < n) : (peek s i n).testBit (n - 1 - j) = bitAt s (i + j) := by
  have hbit := testBit_ofBits ((List.range n).map fun k => bitAt s (i + k)) (i := j) (by simpa using h)
  simp only [List.length_map, List.length_range, List.getElem_map, List.getElem_range] at hbit
  exact hbit

/-- The `w` bits of a body between the `a` bits before and the `lo` bits behind them. -/
theorem bitField_peek (s : State) (i a w lo : Nat) : bitField (peek s i (a + w + lo)) lo w = peek s (i + a) w := by
  have hlow := peek_lt s (i + (a + w)) lo
  rw [bitField, peek_add, Nat.add_comm, Nat.add_mul_div_right _ _ (Nat.two_pow_pos lo), Nat.div_eq_of_lt hlow,
    Nat.zero_add, peek_add, Nat.mul_comm, Nat.mul_add_mod, Nat.mod_eq_of_lt (peek_lt s (i + a) w)]

/-- Settles O22: the reserved rows raise before a request. -/
theorem reservedHeadersRaise : Obligations.ReservedHeadersRaise :=
  fun _ => ⟨rfl, rfl, rfl, rfl, rfl, rfl, rfl, rfl, rfl, rfl, rfl, rfl⟩

/-- Settles O20: BC and BA are the body's first two bits. -/
theorem sstSetsBundlingFlags : Obligations.SstSetsBundlingFlags := by
  intro s x bn hread
  have hbits := getBits_eq_peek (by decide) hread
  have hbc : (peek s 0 3).testBit 2 = bitAt s 0 := testBit_peek s 0 (j := 0) (by decide)
  have hba : (peek s 0 3).testBit 1 = bitAt s 1 := testBit_peek s 0 (j := 1) (by decide)
  obtain ⟨p, w, c, hset⟩ := consume_eq_setBfx s 3
  rw [hset] at hbits ⊢
  refine runOp_ok (Op.bind_ok.2 ⟨_, _, hbits, ?_⟩)
  rw [hbc, hba]
  rfl

/-- Settles O21: the counts and the skipped bits are requests in sequence. -/
theorem controlCommandsOnlySkip : Obligations.ControlCommandsOnlySkip := by
  refine fun s => ⟨rfl, fun hcount hskip => ?_, fun hread => ?_, fun hread => ?_⟩
  · have hn := peek_lt s 0 5
    have hskipped := getBits_eq_peek (by omega) (readable_consume hskip)
    rw [consume_add] at hskipped
    exact runOp_ok (Op.bind_ok.2 ⟨_, _, getBits_eq_peek (by decide) hcount, Op.bind_ok.2 ⟨_, _, hskipped, rfl⟩⟩)
  · exact runOp_ok (Op.bind_ok.2 ⟨_, _, getBits_eq_peek (by decide) hread, rfl⟩)
  · have hrest := getBits_eq_peek (n := 32) (by decide) (readable_consume (n := 24) hread)
    rw [consume_add] at hrest
    exact runOp_ok (Op.bind_ok.2 ⟨_, _, getBits_eq_peek (by decide) (hread.mono (by decide)),
      Op.bind_ok.2 ⟨_, _, hrest, rfl⟩⟩)

/-! Set table. -/

/-- A field of an STB body (30_encoding.md rule R87). -/
theorem extractLsb'_body (s : State) {a w lo : Nat} (h : a + w + lo = 15) :
    ((BitVec.ofNat 15 (peek s 0 15)).extractLsb' lo w).toNat = peek s a w := by
  have hbody := peek_lt s 0 15
  have hfield := bitField_peek s 0 a w lo
  rw [h, Nat.zero_add, bitField] at hfield
  rw [BitVec.extractLsb'_toNat, BitVec.toNat_ofNat, Nat.mod_eq_of_lt hbody, Nat.shiftRight_eq_div_pow, hfield]

theorem getLsbD_body (s : State) : (BitVec.ofNat 15 (peek s 0 15)).getLsbD 4 = bitAt s 10 := by
  have hbit : (peek s 0 15).testBit 4 = bitAt s 10 := testBit_peek s 0 (j := 10) (by decide)
  rw [BitVec.getLsbD_ofNat, hbit]
  rfl

theorem ofBool_append_toNat : ∀ (a6 : Bool) (a : BitVec 6),
    (BitVec.ofBool a6 ++ a).toNat = (if a6 then 64 else 0) + a.toNat := by decide

theorem highestSetBit_eq_log2 : ∀ adr : BitVec 7, highestSetBit adr = Nat.log2 adr.toNat := by decide

theorem storedLength_eq (k : TableId) (dl : Nat) :
    storedLength k dl = if dl = 0 ∧ k ≠ .normal then 16 else dl := by
  cases k <;> simp [storedLength]

/-- The range of an address is the slots whose top bits are its tag; the address 0 has every slot (40_set_table.md rules
R103, R104, R106). -/
theorem slot_in_range_iff (adr : BitVec 7) {i : Nat} (hi : i < 64) :
    (baseSlot adr ≤ i ∧ i < baseSlot adr + 2 ^ (6 - highestSetBit adr)) ↔
      (adr.toNat = 0 ∨ i / 2 ^ (6 - highestSetBit adr) + 2 ^ highestSetBit adr = adr.toNat) := by
  have hadr := adr.isLt
  rw [baseSlot, highestSetBit_eq_log2]
  by_cases h0 : adr.toNat = 0
  · simp [h0, hi]
  · have hlow := Nat.log2_self_le h0
    have hhigh := Nat.lt_log2_self (n := adr.toNat)
    have hle : Nat.log2 adr.toNat ≤ 6 := Nat.lt_succ_iff.1 ((Nat.log2_lt h0).2 hadr)
    generalize Nat.log2 adr.toNat = t at hlow hhigh hle ⊢
    interval_cases t <;> omega

theorem fillSlots_getElem (t : Table) (adr : BitVec 7) (e : Entry) (i : Fin 64) :
    (fillSlots t adr e)[i] =
      if adr.toNat = 0 ∨ i.val / 2 ^ (6 - highestSetBit adr) + 2 ^ highestSetBit adr = adr.toNat then some e
      else t[i] := by
  simp only [fillSlots, Fin.getElem_fin, Vector.getElem_ofFn, slot_in_range_iff adr i.isLt]

/-- A set table whose select names the table `k`. -/
theorem exec_stb {s : State} {k : TableId} {sel : BitVec 2} (a6 : Bool) (hk : tableOfSelect sel = some k)
    (h : Readable s 15) :
    let ii := BitVec.ofNat 15 (peek s 0 15)
    let adr := tableAddress a6 ii
    exec (.stb sel a6) s = .next ((consume s 15).setTable k
      (fillSlots (s.table k) adr (entryOfBody k (highestSetBit adr) ii))) := by
  refine runOp_ok ?_
  simp only [setTableCommand, hk]
  refine Op.bind_ok.2 ⟨_, _, getBits_eq_peek (by decide) h, ?_⟩
  rw [update_eq, consume_table]

/-- Settles O16: address and entry are the body's fields, and the range of the address the slots of its tag. -/
theorem stbFillsTaggedSlots : Obligations.StbFillsTaggedSlots := by
  intro s k sel a6 hsel hread adr t dl e
  have hk : tableOfSelect sel = some k := by
    simp only [List.mem_cons, Prod.mk.injEq, List.not_mem_nil, or_false] at hsel
    rcases hsel with ⟨rfl, rfl⟩ | ⟨rfl, rfl⟩ | ⟨rfl, rfl⟩ <;> rfl
  have hadr : (tableAddress a6 (BitVec.ofNat 15 (peek s 0 15))).toNat = adr := by
    rw [tableAddress, ofBool_append_toNat, extractLsb'_body s (a := 0) (by decide)]
  have ht : highestSetBit (tableAddress a6 (BitVec.ofNat 15 (peek s 0 15))) = t := by rw [highestSetBit_eq_log2, hadr]
  have he : entryOfBody k t (BitVec.ofNat 15 (peek s 0 15)) = e := by
    rw [entryOfBody, extractLsb'_body s (a := 6) (by decide), extractLsb'_body s (a := 11) (by decide), getLsbD_body,
      storedLength_eq]
  refine ⟨_, exec_stb a6 hk hread, fun i => ?_⟩
  rw [fillSlots_getElem, ht, hadr, he]

end Sys2Proof.Machine
end

section
/-! What a vertex's push writes of the slot it has chosen (41_vertex.md rule R126; 42_normal.md rule R151; 43_color.md rule
R176). -/

namespace Sys2Proof.Machine

/-- The position part leaves WI and the slots, or with the push bit advances WI and writes P into that slot's part. -/
structure PositionPushed (mbp : Bool) (s t : State) : Prop where
  wi : t.wi = if mbp then s.wi + 1 else s.wi
  slot : ∀ j, t.slot j = if mbp = true ∧ j = t.wi then { s.slot j with pos := t.pos } else s.slot j

theorem vertexPosition_pushed {h6 : BitVec 6} {mbp : Bool} {s t : State} (h : vertexPosition h6 s = .ok mbp t) :
    PositionPushed mbp s t := by
  obtain ⟨e, rm, fs, q, p, w, c, -, -, -, -, -, -, -, rfl⟩ := vertexPosition_ok h
  cases mbp with
  | false => exact ⟨by simp, fun j => by simp⟩
  | true =>
    refine ⟨by simp, fun j => ?_⟩
    by_cases hj : j = s.wi + 1
    · subst hj
      simp [State.slot_pushPosition]
    · refine (slot_pushPosition_other (by exact hj)).trans ((if_neg ?_).symm)
      exact fun h => hj h.2

/-- The bundled parts, as far as `bn` and `bc` ask for them, leave WI, P and the attributes they do not carry; with the push
bit they write their own into the slot WI, ⊥ as ⊥. -/
structure PartsPushed (bn bc mbp : Bool) (s t : State) : Prop where
  wi : t.wi = s.wi
  pos : t.pos = s.pos
  normal : bn = false → t.normal = s.normal
  color : bc = false → t.color = s.color ∧ t.alpha = s.alpha
  slot : ∀ j, t.slot j =
    if mbp = true ∧ j = s.wi then
      { s.slot j with
        normal := if bn then t.normal else (s.slot j).normal
        color := if bc then t.color else (s.slot j).color
        alpha := if bc then t.alpha else (s.slot j).alpha }
    else s.slot j

theorem partsPushed_none (mbp : Bool) (s : State) : PartsPushed false false mbp s s :=
  ⟨rfl, rfl, fun _ => rfl, fun _ => ⟨rfl, rfl⟩, fun j => by simp⟩

/-- A push after updates that leave WI, the cache, P and the attributes not asked for. -/
theorem partsPushed_of_push {bn bc mbp : Bool} {s v : State} (hwi : v.wi = s.wi) (hvc : v.vc = s.vc) (hpos : v.pos = s.pos)
    (hnormal : bn = false → v.normal = s.normal) (hcolor : bc = false → v.color = s.color ∧ v.alpha = s.alpha) :
    PartsPushed bn bc mbp s (if mbp then v.setSlot v.wi { v.slot v.wi with
      normal := if bn then v.normal else (v.slot v.wi).normal
      color := if bc then v.color else (v.slot v.wi).color
      alpha := if bc then v.alpha else (v.slot v.wi).alpha } else v) := by
  cases mbp with
  | false => exact ⟨hwi, hpos, hnormal, hcolor, fun j => by simp [slot_of_vc hvc]⟩
  | true =>
    refine ⟨hwi, hpos, hnormal, hcolor, fun j => ?_⟩
    by_cases hj : j = s.wi
    · simp [hj, hwi, slot_of_vc hvc]
    · simp [hj, hwi, State.slot_setSlot_other, slot_of_vc hvc]

theorem setNormalCommand_partsPushed {h6 : BitVec 6} {mbp : Bool} {s t : State} {x : Unit} (hbn : s.bn = true)
    (h : setNormalCommand h6 mbp s = .ok x t) : PartsPushed true false mbp s t := by
  obtain ⟨n, v, hv, ht⟩ := Op.bind_ok.1 (setNormalCommand_eq h6 mbp ▸ h)
  obtain ⟨p, w, c, rfl⟩ := normalBody_ok hv
  rw [normalTail_bundled mbp n (by exact hbn)] at ht
  cases ht
  exact partsPushed_of_push (bn := true) (bc := false) rfl rfl rfl (fun h => Bool.noConfusion h) fun _ => ⟨rfl, rfl⟩

theorem setColorCommand_partsPushed {h6 : BitVec 6} {mbp : Bool} {s t : State} {x : Unit} (hbc : s.bc = true)
    (h : setColorCommand h6 mbp s = .ok x t) : PartsPushed false true mbp s t := by
  obtain ⟨_, v, hv, ht⟩ := Op.bind_ok.1 (setColorCommand_eq h6 mbp ▸ h)
  have hframe := colorBody_frame hv
  rw [colorTail_bundled mbp (hframe.bc.trans hbc)] at ht
  cases ht
  exact partsPushed_of_push (bn := false) (bc := true) hframe.wi hframe.vc hframe.pos (fun _ => hframe.normal)
    fun h => Bool.noConfusion h

/-- The promotion and the fetch of a bundled part leave what a push reads and writes. -/
theorem PartsPushed.of_promoted {bn bc mbp : Bool} {s t : State} {cur nxt : Byte} {p : Nat} {w : Window} {c : Nat}
    (h : PartsPushed bn bc mbp (((s.setCur cur).setBfx p w c).setNxt nxt) t) : PartsPushed bn bc mbp s t :=
  ⟨h.wi, h.pos, h.normal, h.color, h.slot⟩

theorem bundledNormal_partsPushed {h6 : BitVec 6} {mbp : Bool} {s t : State} {x : Unit} (hbn : s.bn = true)
    (h : bundledNormal h6 mbp s = .ok x t) : PartsPushed true false mbp s t := by
  rw [bundledNormal_promoted] at h
  obtain ⟨_, u, hu, h⟩ := Op.bind_ok.1 h
  obtain ⟨p, w, c, b, rfl⟩ := fetchNext_eq hu
  exact (setNormalCommand_partsPushed (by exact hbn) h).of_promoted

theorem bundledColor_partsPushed {h6 : BitVec 6} {mbp : Bool} {s t : State} {x : Unit} (hbc : s.bc = true)
    (h : bundledColor h6 mbp s = .ok x t) : PartsPushed false true mbp s t := by
  rw [bundledColor_promoted] at h
  obtain ⟨_, u, hu, h⟩ := Op.bind_ok.1 h
  obtain ⟨p, w, c, b, rfl⟩ := fetchNext_eq hu
  exact (setColorCommand_partsPushed (by exact hbc) h).of_promoted

/-- A normal and then a color. -/
theorem PartsPushed.trans {mbp : Bool} {s t u : State} (h : PartsPushed true false mbp s t)
    (h' : PartsPushed false true mbp t u) : PartsPushed true true mbp s u where
  wi := h'.wi.trans h.wi
  pos := h'.pos.trans h.pos
  normal hno := Bool.noConfusion hno
  color hno := Bool.noConfusion hno
  slot j := by
    rw [h'.slot, h.slot, h.wi, h'.normal rfl]
    split <;> rfl

/-- The parts of a vertex step that completes. -/
theorem vertexStep_parts {h6 : BitVec 6} {s t : State} {x : Unit} (h : vertexStep h6 s = .ok x t) :
    ∃ u mbp v w, fetchNext (if s.bn = true ∨ s.bc = true then 6 else 8) s = .ok () u ∧
      vertexPosition h6 u = .ok mbp v ∧ PartsPushed s.bn s.bc mbp v w ∧ emitVertex w = .ok () t := by
  obtain ⟨_, _, hs, h⟩ := Op.bind_ok.1 h
  cases hs
  have hkeep : ∀ {n u mbp v}, fetchNext n s = .ok () u → vertexPosition h6 u = .ok mbp v →
      v.bn = s.bn ∧ v.bc = s.bc := by
    intro n u mbp v hu hv
    have hmoves : Moves s v := ((fetchNext_confined n s).ok hu).trans ((vertexPosition_confined h6 u).ok hv)
    exact ⟨hmoves.sameConfiguration.bn, hmoves.sameConfiguration.bc⟩
  cases hbn : s.bn <;> cases hbc : s.bc <;> simp only [hbn, hbc] at h
  all_goals
    obtain ⟨_, u, hu, h⟩ := Op.bind_ok.1 h
    obtain ⟨mbp, v, hv, h⟩ := Op.bind_ok.1 h
    obtain ⟨hbn', hbc'⟩ := hkeep hu hv
    rw [hbn] at hbn'
    rw [hbc] at hbc'
    refine ⟨u, mbp, v, ?_⟩
  · exact ⟨v, hu, hv, partsPushed_none mbp v, h⟩
  all_goals
    obtain ⟨_, _, hs, h⟩ := Op.bind_ok.1 h
    cases hs
    obtain ⟨_, w, hw, h⟩ := Op.bind_ok.1 h
  · exact ⟨w, hu, hv, bundledColor_partsPushed hbc' hw, h⟩
  · exact ⟨w, hu, hv, bundledNormal_partsPushed hbn' hw, h⟩
  · obtain ⟨_, _, hs, h⟩ := Op.bind_ok.1 h
    cases hs
    obtain ⟨_, w', hw', h⟩ := Op.bind_ok.1 h
    have hbc'' := ((bundledNormal_confined _ _ _).ok hw).sameConfiguration.bc.trans hbc'
    exact ⟨w', hu, hv, (bundledNormal_partsPushed hbn' hw).trans (bundledColor_partsPushed hbc'' hw'), h⟩

/-- The push bit of a position part that completes is that of `vertexRm`. -/
theorem vertexPosition_push_bit {s t : State} {h6 : BitVec 6} {e : Entry} {w : Nat} {mbp : Bool}
    (hsel : Selects s .position h6 e) (hread : Readable s (w + (e.tagLength + 3 * e.fieldLength - 3)))
    (h : vertexPosition h6 ((consume s w).setNxt (BitVec.ofNat 8 (peek s 0 w))) = .ok mbp t) :
    mbp = (vertexRm s h6 e w).getLsbD 0 := by
  obtain ⟨e', rm, fs, q, p, win, c, he, -, hspare, -, -, -, hrel, -⟩ := vertexPosition_ok h
  have hsel' : Selects ((consume s w).setNxt (BitVec.ofNat 8 (peek s 0 w))) .position h6 e :=
    selects_of_table hsel (by simp)
  rw [hsel'.1] at he
  cases he
  have hfit : 3 ≤ e.tagLength + 3 * e.fieldLength := by
    have hover : ¬ 3 < spareBits e := by omega
    rw [three_lt_spareBits] at hover
    omega
  obtain ⟨p0, hp0⟩ : ∃ p0, e.absolute = false → s.pos = some p0 := by
    cases habs : e.absolute with
    | true => exact ⟨default, fun hno => Bool.noConfusion hno⟩
    | false =>
      obtain ⟨p0, hp0, -⟩ := hrel habs
      exact ⟨p0, fun _ => by simpa using hp0⟩
  rw [vertexPosition_eq hsel hfit hp0 hread] at h
  cases h
  rfl

theorem vc_of_slot {s t : State} (h : ∀ j, t.slot j = s.slot j) : t.vc = s.vc := by
  refine Vector.ext fun i hi => ?_
  have hj := h (BitVec.ofNat 4 i)
  simpa [State.slot, Nat.mod_eq_of_lt hi] using hj

/-- A vertex leaves WI and the cache, or with the push bit advances WI and writes into that slot P and the attributes that
`bn` and `bc` ask for. -/
structure VertexPushed (bn bc mbp : Bool) (s t : State) : Prop where
  wi : t.wi = if mbp then s.wi + 1 else s.wi
  slot : ∀ j, t.slot j =
    if mbp = true ∧ j = t.wi then
      { pos := t.pos
        normal := if bn then t.normal else (s.slot j).normal
        color := if bc then t.color else (s.slot j).color
        alpha := if bc then t.alpha else (s.slot j).alpha }
    else s.slot j

theorem PositionPushed.parts {bn bc mbp : Bool} {s t u : State} (h : PositionPushed mbp s t)
    (h' : PartsPushed bn bc mbp t u) : VertexPushed bn bc mbp s u where
  wi := h'.wi.trans h.wi
  slot j := by
    rw [h'.slot, h.slot, h'.wi, h'.pos]
    split <;> rfl

/-- It depends on WI and the cache before, and on WI, the cache and the accumulators after. -/
theorem VertexPushed.of_eq {bn bc mbp : Bool} {r s t : State} (h : VertexPushed bn bc mbp r t) (hwi : r.wi = s.wi)
    (hslot : ∀ j, r.slot j = s.slot j) : VertexPushed bn bc mbp s t where
  wi := hwi ▸ h.wi
  slot j := hslot j ▸ h.slot j

/-- What a vertex that completes leaves of the cache: the position chooses the slot and writes its part, the bundled parts
theirs, and the emission none. -/
theorem vertexStep_pushed {s t : State} {h6 : BitVec 6} {e : Entry} {x : Unit} (hsel : Selects s .position h6 e)
    (hread : Readable s ((if s.bn = true ∨ s.bc = true then 6 else 8) + (e.tagLength + 3 * e.fieldLength - 3)))
    (h : vertexStep h6 s = .ok x t) : VertexPushed s.bn s.bc
      ((vertexRm s h6 e (if s.bn = true ∨ s.bc = true then 6 else 8)).getLsbD 0) s t := by
  obtain ⟨u, mbp, v, r, hfetch, hposition, hparts, hemit⟩ := vertexStep_parts h
  rw [fetchNext_first (by split <;> decide) (hread.mono (Nat.le_add_right _ _))] at hfetch
  cases hfetch
  rw [← vertexPosition_push_bit hsel hread hposition]
  have hpushed := (vertexPosition_pushed hposition).parts hparts
  obtain ⟨q, n, c, -, -, -, rfl⟩ := emitVertex_ok.1 hemit
  obtain ⟨p, win, c, hset⟩ := consume_eq_setBfx s (if s.bn = true ∨ s.bc = true then 6 else 8)
  have hbefore := hpushed.of_eq (s := s) (by rw [hset]; rfl) (by rw [hset]; exact fun _ => rfl)
  exact ⟨hbefore.wi, hbefore.slot⟩

/-- Settles O29, from what a vertex leaves of the cache. -/
theorem vertexPushWritesItsParts : Obligations.VertexPushWritesItsParts := by
  intro s t h6 e hsel w hread hexec hstatus
  obtain ⟨hwi, hslot⟩ := vertexStep_pushed hsel hread (runOp_completes hexec hstatus)
  refine ⟨fun hpush => ?_, fun hpush => ?_⟩
  · rw [hpush] at hwi hslot
    have hown := (hslot t.wi).trans (if_pos ⟨rfl, rfl⟩)
    rw [hown]
    refine ⟨?_, rfl, rfl, rfl, rfl, fun j hj => (hslot j).trans (if_neg fun h => hj h.2)⟩
    rw [hwi]
    exact BitVec.toNat_add _ _
  · rw [hpush] at hwi hslot
    exact ⟨hwi, vc_of_slot fun j => (hslot j).trans (if_neg fun h => Bool.noConfusion h.1)⟩

end Sys2Proof.Machine
end

section
/-! Set table: the reserved select, and which slots a write reaches (40_set_table.md rules R102, R104, R106, R107). -/

namespace Sys2Proof.Machine

/-- Settles O17: both forms of the command raise before a request. -/
theorem reservedTableSelectRaises : Obligations.ReservedTableSelectRaises :=
  fun _ _ => ⟨runOp_raise rfl, runOp_raise rfl⟩

/-! How many slots share a tag. -/

/-- Of the numbers below `n`, `d` have the quotient `q` by `d`, if the block of `q` ends by `n`. -/
theorem length_filter_finRange_div_eq {n d q : Nat} (hd : 0 < d) (h : q * d + d ≤ n) :
    ((List.finRange n).filter fun i => decide (i.val / d = q)).length = d := by
  have hvals : ((List.finRange n).filter fun i => decide (i.val / d = q)).length =
      ((Finset.range n).filter fun i => i / d = q).card := by
    change _ = ((List.range n).filter fun i => decide (i / d = q)).length
    rw [← List.map_coe_finRange_eq_range, List.filter_map, List.length_map]
    rfl
  have hblock : ((Finset.range n).filter fun i => i / d = q) = Finset.Ico (q * d) (q * d + d) := by
    ext i
    rw [Finset.mem_filter, Finset.mem_range, Finset.mem_Ico, Nat.div_eq_iff hd]
    omega
  rw [hvals, hblock, Nat.card_Ico, Nat.add_sub_cancel_left]

/-- A nonzero address is its leading bit and the tag below it (40_set_table.md rule R103). -/
theorem two_pow_highestSetBit_le {adr : BitVec 7} (h : adr ≠ 0) : 2 ^ highestSetBit adr ≤ adr.toNat := by
  rw [highestSetBit_eq_log2]
  exact Nat.log2_self_le fun h0 => h (BitVec.eq_of_toNat_eq h0)

theorem toNat_lt_two_pow_highestSetBit_succ (adr : BitVec 7) : adr.toNat < 2 ^ (highestSetBit adr + 1) := by
  rw [highestSetBit_eq_log2]
  exact Nat.lt_log2_self

/-- The slots per tag and the tags of that length make up the table (40_set_table.md rule R104). -/
theorem tags_mul_slots (adr : BitVec 7) : 2 ^ highestSetBit adr * 2 ^ (6 - highestSetBit adr) = 64 := by
  rw [← Nat.pow_add, Nat.add_sub_of_le (highestSetBit_le adr)]

/-- Settles O18: the slots of a tag are one block of the table. -/
theorem filledSlotsShareTheTag : Obligations.FilledSlotsShareTheTag := by
  intro s k adr e hadr t s'
  have hlow : 2 ^ t ≤ adr.toNat := two_pow_highestSetBit_le hadr
  have hhigh : adr.toNat < 2 ^ t * 2 := toNat_lt_two_pow_highestSetBit_succ adr
  refine ⟨fun i => ?_, fun k' hk => s.table_setTable_other _ hk, ?_⟩
  · have htag : (adr.toNat = 0 ∨ i.val / 2 ^ (6 - t) + 2 ^ t = adr.toNat) ↔
        i.val / 2 ^ (6 - t) = adr.toNat - 2 ^ t := by
      have := Nat.two_pow_pos t
      omega
    rw [State.table_setTable_same, fillSlots_getElem]
    exact if_congr htag rfl rfl
  · refine length_filter_finRange_div_eq (Nat.two_pow_pos _) ?_
    calc (adr.toNat - 2 ^ t) * 2 ^ (6 - t) + 2 ^ (6 - t)
      _ = (adr.toNat - 2 ^ t + 1) * 2 ^ (6 - t) := (Nat.succ_mul _ _).symm
      _ ≤ 2 ^ t * 2 ^ (6 - t) := Nat.mul_le_mul_right _ (by omega)
      _ = 64 := tags_mul_slots adr

/-! Which of two writes a slot keeps. -/

/-- A set table at `adr` writes the slot `i` (40_set_table.md rule R104). -/
def Reaches (adr : BitVec 7) (i : Nat) : Prop :=
  baseSlot adr ≤ i ∧ i < baseSlot adr + 2 ^ (6 - highestSetBit adr)

theorem fillSlots_of_reaches {adr : BitVec 7} {i : Fin 64} (t : Table) (e : Entry) (h : Reaches adr i) :
    (fillSlots t adr e)[i] = some e :=
  (Vector.getElem_ofFn i.isLt).trans (if_pos h)

theorem fillSlots_of_not_reaches {adr : BitVec 7} {i : Fin 64} (t : Table) (e : Entry) (h : ¬Reaches adr i) :
    (fillSlots t adr e)[i] = t[i] :=
  (Vector.getElem_ofFn i.isLt).trans (if_neg h)

/-- The first slot is aligned to the length of the range. -/
theorem slots_dvd_baseSlot (adr : BitVec 7) : 2 ^ (6 - highestSetBit adr) ∣ baseSlot adr :=
  (Nat.dvd_mod_iff (Dvd.intro_left _ (tags_mul_slots adr))).2 (Nat.dvd_mul_left _ _)

/-- So the range of an address, 0 included, is one block of the table. -/
theorem reaches_iff (adr : BitVec 7) (i : Nat) :
    Reaches adr i ↔ i / 2 ^ (6 - highestSetBit adr) = baseSlot adr / 2 ^ (6 - highestSetBit adr) := by
  have hpos := Nat.two_pow_pos (6 - highestSetBit adr)
  have hbase := Nat.div_mul_cancel (slots_dvd_baseSlot adr)
  rw [Nat.div_eq_iff hpos, hbase, Reaches]
  omega

/-- Two ranges that meet nest: the longer tag has the smaller range (40_set_table.md rule R107). -/
theorem Reaches.nested {a b : BitVec 7} {i j : Nat} (hlen : highestSetBit b ≤ highestSetBit a) (ha : Reaches a i)
    (hb : Reaches b i) (hj : Reaches a j) : Reaches b j := by
  have hsplit : 2 ^ (6 - highestSetBit b) =
      2 ^ (6 - highestSetBit a) * 2 ^ (highestSetBit a - highestSetBit b) := by
    have hle := highestSetBit_le a
    rw [← Nat.pow_add]
    congr 1
    omega
  rw [reaches_iff] at *
  rw [← hb, hsplit, ← Nat.div_div_eq_div_mul, ← Nat.div_div_eq_div_mul, hj, ha]

/-- Settles O19: the second write decides where it reaches, and two ranges that share a slot nest. -/
theorem laterTableWriteWins : Obligations.LaterTableWriteWins := by
  intro t a b ea eb inRange
  refine ⟨fun i => ⟨fun hb => fillSlots_of_reaches _ _ hb, fun ha hb => ?_, fun ha hb => ?_⟩, ?_⟩
  · rw [fillSlots_of_not_reaches _ _ hb, fillSlots_of_reaches _ _ ha]
  · rw [fillSlots_of_not_reaches _ _ hb, fillSlots_of_not_reaches _ _ ha]
  · by_cases hmeet : ∃ i, inRange a i ∧ inRange b i
    · obtain ⟨i, ha, hb⟩ := hmeet
      rcases Nat.le_total (highestSetBit b) (highestSetBit a) with hlen | hlen
      · exact .inl fun j hj => Reaches.nested hlen ha hb hj
      · exact .inr (.inl fun j hj => Reaches.nested hlen hb ha hj)
    · exact .inr (.inr (not_exists.1 hmeet))

end Sys2Proof.Machine
end

section
/-! Position pushes and what the sink gets (41_vertex.md rules R120, R126, R129; 44_mesh_reference.md rules R192, R199, R200):
the unbundled vertex, the vertex cache as a ring of the last sixteen pushes, and the exact position output. -/

namespace Sys2Proof.Machine

/-- Settles O24: the command is the vertex step, whose whole state `vertexStep_unbundled` gives. -/
theorem unbundledVertexExecutes : Obligations.UnbundledVertexExecutes :=
  fun _ _ _ _ n c a hsel hfit hbn hbc hpos hread => runOp_ok (vertexStep_unbundled n c a hsel hfit hbn hbc hpos hread)

/-! The ring of pushes. -/

/-- The positions `ps` set and pushed one after the other. -/
def State.pushAll (s : State) (ps : List Position) : State := ps.foldl (fun s p => (s.setPos p).pushPosition) s

theorem State.pushAll_concat (s : State) (ps : List Position) (p : Position) :
    s.pushAll (ps ++ [p]) = ((s.pushAll ps).setPos p).pushPosition :=
  List.foldl_concat _ _ _ _

theorem State.pushAll_wi (s : State) (ps : List Position) : (s.pushAll ps).wi = s.wi + BitVec.ofNat 4 ps.length := by
  induction ps using List.reverseRecOn with
  | nil => exact (BitVec.add_zero s.wi).symm
  | append_singleton ps p ih =>
    rw [State.pushAll_concat, State.pushPosition_wi, State.setPos_wi, ih, List.length_append, List.length_singleton,
      BitVec.ofNat_add, BitVec.add_assoc]
    rfl

/-- 44_mesh_reference.md rule R199: the offset 0 finds the push just made. -/
theorem slot_pushed_zero (s : State) (p : Position) :
    ((s.setPos p).pushPosition.slot ((s.setPos p).pushPosition.wi - BitVec.ofNat 4 0)).pos = some p := by
  simp [State.slot_pushPosition]

/-- A push moves every slot but the one it takes over one offset further away; offset 16 would name that one. -/
theorem slot_pushed_succ (s : State) (p : Position) {k : Nat} (hk : k + 1 < 16) :
    (s.setPos p).pushPosition.slot ((s.setPos p).pushPosition.wi - BitVec.ofNat 4 (k + 1)) =
      s.slot (s.wi - BitVec.ofNat 4 k) := by
  have hback : (s.setPos p).pushPosition.wi - BitVec.ofNat 4 (k + 1) = s.wi - BitVec.ofNat 4 k := by
    rw [State.pushPosition_wi, State.setPos_wi]
    bv_omega
  have hother : s.wi - BitVec.ofNat 4 k ≠ (s.setPos p).pushPosition.wi := by
    rw [State.pushPosition_wi, State.setPos_wi]
    bv_omega
  rw [hback, slot_pushPosition_other hother, State.setPos_slot]

/-- 44_mesh_reference.md rule R200: the offset `k` finds the push `k` before the last. -/
theorem slot_pushAll (s : State) {ps : List Position} {k : Nat} (hk : k < 16) (hlen : k < ps.length) :
    ((s.pushAll ps).slot ((s.pushAll ps).wi - BitVec.ofNat 4 k)).pos = ps.reverse[k]? := by
  induction ps using List.reverseRecOn generalizing k with
  | nil => cases hlen
  | append_singleton ps p ih =>
    rw [State.pushAll_concat, List.reverse_concat]
    cases k with
    | zero => rw [slot_pushed_zero, List.getElem?_cons_zero]
    | succ k =>
      rw [List.length_append, List.length_singleton] at hlen
      rw [slot_pushed_succ _ _ hk, List.getElem?_cons_succ]
      exact ih (by omega) (by omega)

/-- Settles O44, by induction on the pushes from the last one back. -/
theorem cacheKeepsLastSixteenPushes : Obligations.CacheKeepsLastSixteenPushes := by
  intro s ps k hk hlen
  refine ⟨slot_pushAll s hk hlen, ?_⟩
  have hwi : (s.pushAll ps).wi.toNat = (s.wi.toNat + ps.length) % 16 := by
    rw [State.pushAll_wi, BitVec.toNat_add, BitVec.toNat_ofNat, Nat.add_mod_mod]
  exact hwi

/-! The position output. -/

/-- 00_scope.md rule R11: the conversion of a coordinate is exact. -/
theorem value32_fx (v : Word16) : value32 (fx v) = (v.toInt : ℚ) / 32768 := by
  rw [fx, value32_binary32OfFixed ((word16_natAbs_le v).trans_lt (by decide)) (by decide)]
  norm_num

/-- The range of an output is the range of a 16-bit two's-complement integer, scaled. -/
theorem value32_fx_bounds (v : Word16) : -1 ≤ value32 (fx v) ∧ value32 (fx v) ≤ 1 - 1 / 2 ^ 15 := by
  have hlow : ((-32768 : Int) : ℚ) ≤ v.toInt := Int.cast_le.2 (BitVec.le_toInt v)
  have hhigh : (v.toInt : ℚ) ≤ (32767 : Int) := Int.cast_le.2 (Int.le_of_lt_add_one BitVec.toInt_lt)
  rw [value32_fx]
  push_cast at hlow hhigh
  constructor <;> linarith

/-- Settles O59: every coordinate goes through the same exact conversion. -/
theorem positionOutputIsExact : Obligations.PositionOutputIsExact := by
  intro p
  refine ⟨value32_fx p.x, value32_fx p.y, value32_fx p.z, fun f hf => ?_⟩
  obtain rfl | rfl | rfl : f = fx p.x ∨ f = fx p.y ∨ f = fx p.z := by simpa [Position.toFloats] using hf
  · exact value32_fx_bounds p.x
  · exact value32_fx_bounds p.y
  · exact value32_fx_bounds p.z

end Sys2Proof.Machine
end

section
/-! The corrections of a relative normal and the conversion to a unit vector (42_normal.md rules R144 to R156): the maps of
the six regular sextants case by case, and the special sextants, which no correction leaves. -/

namespace Sys2Proof.Machine

/-! The one correction. -/

section
variable {n : Normal}

theorem wrapNormal_u (hu : n.u < 0) (hv : 0 ≤ n.v) :
    wrapNormal n = some { n with sex := uWrapSextant n.sex, u := -n.u } := if_pos ⟨hu, hv⟩

theorem wrapNormal_v (hu : 0 ≤ n.u) (hv : n.v < 0) :
    wrapNormal n = some { n with oct := n.oct ^^^ vWrapBit n.sex, v := -n.v } := by
  rw [wrapNormal, if_neg (by omega), if_pos ⟨hu, hv⟩]

theorem wrapNormal_uv (hu : 0 ≤ n.u) (hv : 0 ≤ n.v) (hsum : 64 < n.u + n.v) :
    wrapNormal n = some { n with sex := uvWrapSextant n.sex, u := 64 - n.u, v := 64 - n.v } := by
  rw [wrapNormal, if_neg (by omega), if_neg (by omega), if_pos ⟨hu, hv, hsum⟩]

theorem wrapNormal_negative (hu : n.u < 0) (hv : n.v < 0) : wrapNormal n = none := by
  rw [wrapNormal, if_neg (by omega), if_neg (by omega), if_neg (by omega)]

end

/-- The three maps as tables over the eight sextants (42_normal.md rules R145 to R147). -/
theorem wrapMaps_eq (sex : BitVec 3) :
    uWrapSextant sex = [4#3, 5#3, 3#3, 2#3, 0#3, 1#3, 6#3, 7#3].getD sex.toNat 0#3 ∧
      vWrapBit sex = [2#3, 4#3, 1#3, 1#3, 2#3, 4#3, 0#3, 0#3].getD sex.toNat 0#3 ∧
      uvWrapSextant sex = [2#3, 3#3, 0#3, 1#3, 5#3, 4#3, 6#3, 7#3].getD sex.toNat 0#3 := by
  revert sex
  decide

/-- Settles O32: the signs of U and V choose the correction, and the maps are the tables. -/
theorem wrapCorrectsOnce : Obligations.WrapCorrectsOnce := by
  intro n
  obtain ⟨huMap, hvMap, huvMap⟩ := wrapMaps_eq n.sex
  refine ⟨fun hu hv => ?_, fun hu hv => ?_, fun hu hv hsum => ?_, wrapNormal_negative⟩
  · rw [wrapNormal_u hu hv, huMap]
  · rw [wrapNormal_v hu hv, hvMap]
  · rw [wrapNormal_uv hu hv hsum, huvMap]

/-! The regular sextants. -/

theorem sextant_cases {sex : BitVec 3} (h : sex.toNat ≤ 5) :
    sex = 0#3 ∨ sex = 1#3 ∨ sex = 2#3 ∨ sex = 3#3 ∨ sex = 4#3 ∨ sex = 5#3 := by
  revert sex
  decide

/-- Flipping a sign bit twice is flipping none. -/
theorem negateIf_xor (a b : Bool) (f : F32) : negateIf (a ^^ b) f = negateIf a (negateIf b f) := by
  cases a <;> cases b <;> simp [negateIf, negate]

/-- The flips of two octants follow each other. -/
theorem flipSigns_xor (o m : BitVec 3) (n : Vec3) : flipSigns (o ^^^ m) n = flipSigns o (flipSigns m n) := by
  simp only [flipSigns, BitVec.getLsbD_xor, negateIf_xor]

/-- The bit of a v-wrap governs the place where the sextant puts the ROM's y component (42_normal.md rule R146). -/
theorem flipSigns_vWrapBit {sex : BitVec 3} (h : sex.toNat ≤ 5) (x y z : F32) :
    flipSigns (vWrapBit sex) (permute sex ⟨x, y, z⟩) = permute sex ⟨x, negate y, z⟩ := by
  obtain rfl | rfl | rfl | rfl | rfl | rfl := sextant_cases h <;> rfl

/-- Settles O33: the flip of the one bit comes first, and it reaches the ROM's y component. -/
theorem vWrapNegatesTheComponentOfV : Obligations.VWrapNegatesTheComponentOfV := by
  intro sex oct x y z hsex
  rw [flipSigns_xor, flipSigns_vWrapBit hsex]

/-- The permutations of the six sextants (42_normal.md rule R154). -/
theorem permute_regular {sex : BitVec 3} (h : sex.toNat ≤ 5) (a b c : F32) :
    permute sex ⟨a, b, c⟩ =
      [Vec3.mk a b c, ⟨b, a, c⟩, ⟨a, c, b⟩, ⟨c, a, b⟩, ⟨c, b, a⟩, ⟨b, c, a⟩].getD sex.toNat ⟨a, b, c⟩ := by
  obtain rfl | rfl | rfl | rfl | rfl | rfl := sextant_cases h <;> rfl

theorem romEntry_of_inDomain {params : Params} {u v : Int} {e : RomEntry} (h : inDomain u v = true)
    (he : (params.nqt[v.toNat]?).bind (·[u.toNat]?) = some e) : romEntry params u v = e := by
  simp only [romEntry, h, if_true, he]

theorem convert_regular (params : Params) {n : Normal} (h : n.sex.toNat ≤ 5) :
    convert params n = flipSigns n.oct (permute n.sex ⟨romValue (romEntry params n.u n.v).kx,
      romValue (romEntry params n.u n.v).ky, romValue (romEntry params n.u n.v).kz⟩) := if_pos h

/-- Settles O34: the conversion reads the entry that is there, permutes it and flips its signs. -/
theorem conversionPermutesThenFlips : Obligations.ConversionPermutesThenFlips := by
  intro params n hsex hdomain e he a b c m flip
  rw [convert_regular params hsex, romEntry_of_inDomain hdomain he, permute_regular hsex]
  rfl

/-! The special sextants. -/

/-- The vector of a special sextant and octant (42_normal.md rule R156). -/
def specialVector (params : Params) (sex oct : BitVec 3) : Vec3 :=
  let e := specialNormal params sex oct
  flipSigns e.o ⟨e.x, e.y, e.z⟩

theorem convert_special (params : Params) {n : Normal} (h : 6 ≤ n.sex.toNat) :
    convert params n = specialVector params n.sex n.oct := if_neg (by omega)

/-- No map moves a special sextant, and no octant bit of it flips (42_normal.md rules R145 to R147). -/
theorem wrapMaps_special {sex : BitVec 3} (h : 6 ≤ sex.toNat) :
    uWrapSextant sex = sex ∧ vWrapBit sex = 0#3 ∧ uvWrapSextant sex = sex := by
  revert sex
  decide

/-- A correction of a special normal changes U and V only. -/
theorem wrapNormal_special {n n' : Normal} (h : 6 ≤ n.sex.toNat) (hwrap : wrapNormal n = some n') :
    n'.sex = n.sex ∧ n'.oct = n.oct := by
  obtain ⟨huMap, hvMap, huvMap⟩ := wrapMaps_special h
  unfold wrapNormal at hwrap
  split at hwrap
  · cases hwrap; exact ⟨huMap, rfl⟩
  split at hwrap
  · cases hwrap; exact ⟨rfl, by simp [hvMap]⟩
  split at hwrap
  · cases hwrap; exact ⟨huvMap, rfl⟩
  · cases hwrap

/-- Settles O35: sextant and octant alone select a special normal, and the sixteen codes are evaluated. -/
theorem specialNormalsIgnoreUV : Obligations.SpecialNormalsIgnoreUV := by
  refine ⟨fun params n n' u v hspecial => ⟨?_, fun hwrap => ?_⟩, ?_⟩
  · rw [convert_special params hspecial, convert_special params (n := { n with u := u, v := v }) hspecial]
  · obtain ⟨hsex, hoct⟩ := wrapNormal_special (n := { n with u := u, v := v }) hspecial hwrap
    rw [convert_special params hspecial, convert_special params (hsex ▸ hspecial), hsex, hoct]
  · intro one minusOne minusZero k minusK sextant6 sextant7 oct u v
    have hsix : convert defaultParams ⟨6#3, oct, u, v⟩ = specialVector defaultParams 6#3 oct :=
      convert_special defaultParams (by decide : 6 ≤ (6#3).toNat)
    have hseven : convert defaultParams ⟨7#3, oct, u, v⟩ = specialVector defaultParams 7#3 oct :=
      convert_special defaultParams (by decide : 6 ≤ (7#3).toNat)
    rw [hsix, hseven]
    clear hsix hseven
    revert oct
    decide

end Sys2Proof.Machine
end

section
/-! The standalone normal (42_normal.md rules R140 to R149, R152): whatever its entry makes of the body is checked once, and
then written and sent, or reported. -/

namespace Sys2Proof.Machine

/-! The check. -/

theorem inDomain_iff (u v : Int) : inDomain u v = true ↔ 0 ≤ u ∧ 0 ≤ v ∧ u + v ≤ 64 := by
  simp [inDomain, and_assoc]

theorem besideStream_clearUseMn : BesideStream State.clearUseMn :=
  ⟨fun _ _ _ _ => rfl, fun _ => rfl, fun _ => rfl, fun _ => rfl⟩

theorem clearUseMn_consume_errorAfter (s : State) (taken : Nat) : ErrorAfter s taken (consume s taken).clearUseMn :=
  (ErrorAfter.of_eq rfl rfl fun _ => rfl).between (consume_readTo s taken).errorAfter (clearUseMn_errorAfter _)

/-- What a standalone normal sets: the updates of its body, and the event with BN = 0 (42_normal.md rule R152). -/
theorem normalSet_standalone (s : State) (taken : Nat) (n : Normal) :
    normalSet s false taken n =
      if s.bn then (consume s taken).clearUseMn.setNormal n
      else ((consume s taken).clearUseMn.setNormal n).emit (.globalNormal (convert s.params n)) := by
  obtain ⟨p, w, c, hset⟩ := consume_eq_setBfx s taken
  rw [normalSet, hset]
  by_cases hbn : s.bn = true
  · rw [if_pos hbn, if_pos hbn]
    rfl
  · rw [if_neg hbn, if_neg hbn]
    rfl

section
variable {s : State} {h6 : BitVec 6} {e : Entry} {n : Normal} {taken : Nat}

/-- A standalone normal whose entry makes a normal of the triangle sets it. -/
theorem exec_nrm_set (hsel : Selects s .normal h6 e)
    (hn : normalOf h6 e s.clearUseMn = .ok n (consume s taken).clearUseMn) (hdomain : inDomain n.u n.v = true) :
    exec (.nrm h6) s = .next (normalSet s false taken n) := by
  have hcommand := Op.bind_ok.2 ⟨_, _, normalBody_eq hsel hn hdomain, normalTail_standalone n _⟩
  rw [← setNormalCommand_eq] at hcommand
  refine (runOp_ok hcommand).trans ?_
  obtain ⟨p, w, c, hset⟩ := consume_eq_setBfx s taken
  rw [normalSet_standalone, hset]
  rfl

/-- A standalone normal whose body raises behind its fields. -/
theorem exec_nrm_error {r : Reason} {i : Info}
    (hbody : normalBody h6 s = .error (.raise r i) (consume s taken).clearUseMn) :
    exec (.nrm h6) s = .next (enterError r i (consume s taken)) := by
  have hcommand := (Op.bind_error (f := normalTail false)).2 (.inl hbody)
  rw [← setNormalCommand_eq] at hcommand
  exact runOp_raise_after hcommand (clearUseMn_consume_errorAfter s taken)

/-- A normal outside the triangle is an error (42_normal.md rule R149). -/
theorem exec_nrm_outOfDomain (hsel : Selects s .normal h6 e)
    (hn : normalOf h6 e s.clearUseMn = .ok n (consume s taken).clearUseMn) (hdomain : inDomain n.u n.v = false) :
    exec (.nrm h6) s = .next (enterError .outOfDomain (.uv n.u n.v) (consume s taken)) := by
  have hlookup := lookup_selects (k := .normal) (s := s.clearUseMn) hsel
  exact exec_nrm_error (by simp [normalBody, Op.bind_eq, hlookup, hn, hdomain])

/-- An entry that makes no normal of the body raises its own error. -/
theorem exec_nrm_raise {r : Reason} {i : Info} (hsel : Selects s .normal h6 e)
    (hn : normalOf h6 e s.clearUseMn = .error (.raise r i) (consume s taken).clearUseMn) :
    exec (.nrm h6) s = .next (enterError r i (consume s taken)) := by
  have hlookup := lookup_selects (k := .normal) (s := s.clearUseMn) hsel
  exact exec_nrm_error (by simp [normalBody, Op.bind_eq, hlookup, hn])

end

/-! Absolute normals. -/

theorem inDomain_natCast_eq_false {u v : Nat} (h : 64 < u + v) : inDomain u v = false :=
  Bool.eq_false_iff.2 (mt (inDomain_iff u v).1 (by omega))

/-- Settles O30: the fields are the normal, and the check decides. -/
theorem absoluteNormalExecutes : Obligations.AbsoluteNormalExecutes := by
  intro s h6 e hsel habs hread avail so u v
  have ⟨_, hlegal, _⟩ := hsel
  have hlen := fieldLength_le_of_legal hlegal
  have hn : normalOf h6 e s.clearUseMn =
      .ok (normalAt s h6 e 0) (consume s (e.tagLength + 2 * e.fieldLength)).clearUseMn := by
    rw [normalOf, if_pos habs]
    exact absoluteNormal_eq besideStream_clearUseMn (tagLength_le_of_legal hlegal) (by omega) hread
  exact ⟨fun hin => exec_nrm_set hsel hn (inDomain_natCast hin),
    fun hout => exec_nrm_outOfDomain hsel hn (inDomain_natCast_eq_false hout)⟩

/-! Relative normals. -/

/-- The sum of a relative entry before any correction: `n0` and the signed deltas of the body that begins at the stream's
first bit (42_normal.md rule R143). -/
def normalSum (s : State) (h6 : BitVec 6) (e : Entry) (n0 : Normal) : Normal :=
  { n0 with
    u := n0.u + signedInt e.fieldLength e.rightShift (dataField s h6 (6 - e.tagLength) 0 0 e.fieldLength)
    v := n0.v + signedInt e.fieldLength e.rightShift
      (dataField s h6 (6 - e.tagLength) 0 e.fieldLength e.fieldLength) }

theorem signedValue_eq {L f : Nat} (rs : Nat) (h : f < 2 ^ L) : signedValue L rs f = signedInt L rs f := by
  rw [signedValue, signedInt, sext_eq_toInt h]

/-- A relative entry reads its two fields and corrects the sum. -/
theorem normalOf_relative {s : State} {h6 : BitVec 6} {e : Entry} {n0 : Normal} (hsel : Selects s .normal h6 e)
    (hrel : e.absolute = false) (hn0 : s.normal = some n0) (hread : Readable s (2 * e.fieldLength - (6 - e.tagLength))) :
    normalOf h6 e s.clearUseMn = correctNormal (normalSum s h6 e n0)
      (consume s (2 * e.fieldLength - (6 - e.tagLength))).clearUseMn := by
  have ⟨_, hlegal, _⟩ := hsel
  have hlen := fieldLength_le_of_legal hlegal
  have hsum : [e.fieldLength, e.fieldLength].sum = 2 * e.fieldLength := by simp; omega
  have hfields := besideStream_clearUseMn.unpack (s := s) (a := 0) (h6 := h6) (t := e.tagLength)
    (ws := [e.fieldLength, e.fieldLength]) (by simp; omega) (by rwa [hsum, Nat.zero_add])
  rw [hsum, Nat.zero_add, consume_zero] at hfields
  obtain ⟨p, w, c, hset⟩ := consume_eq_setBfx s (2 * e.fieldLength - (6 - e.tagLength))
  rw [hset] at hfields ⊢
  rw [normalOf, if_neg (by rw [hrel]; decide), relativeNormal, Op.bind_eq, hfields]
  simp [Op.bind_eq, hn0, normalSum, dataFields, fieldAt, signedValue_eq _ (dataField_lt _ _ _ _ _ _)]

/-- Settles O31: a sum in the triangle stands, else the one correction there is goes to the check. -/
theorem relativeNormalExecutes : Obligations.RelativeNormalExecutes := by
  intro s h6 e n0 hsel hrel hn0 hread avail taken u v
  have hof := normalOf_relative hsel hrel hn0 hread
  have hdomain : inDomain u v = true ↔ 0 ≤ u ∧ 0 ≤ v ∧ u + v ≤ 64 := inDomain_iff u v
  refine ⟨fun hin => ?_, fun n1 hout hwrap => ?_, fun hu hv => ?_⟩
  · have hsum := hdomain.2 hin
    exact exec_nrm_set hsel (hof.trans (correctNormal_ok.2 ⟨rfl, .inl ⟨hsum, rfl⟩⟩)) hsum
  · have hsum := Bool.eq_false_iff.2 (mt hdomain.1 hout)
    have hcorrected := hof.trans (correctNormal_ok.2 ⟨rfl, .inr ⟨hsum, hwrap⟩⟩)
    exact ⟨exec_nrm_set hsel hcorrected, exec_nrm_outOfDomain hsel hcorrected⟩
  · have hsum : inDomain u v = false := Bool.eq_false_iff.2 (mt hdomain.1 (by omega))
    have hwrap : wrapNormal (normalSum s h6 e n0) = none := wrapNormal_negative hu hv
    exact exec_nrm_raise hsel (hof.trans (correctNormal_error.2 ⟨rfl, hsum, hwrap, rfl⟩))

end Sys2Proof.Machine
end

section
/-! The events of each command that completes (45_dispatch_control.md rules R216, R226, R235): an emission sends the vertex,
a normal or a color that is not bundled sends itself, and the reads and updates around them send nothing. -/

namespace Sys2Proof.Machine

/-! What no event rests on. -/

/-- No event was sent, and the flags that shape the events are the same. -/
structure SameSink (s t : State) : Prop where
  events : t.events = s.events
  bn : t.bn = s.bn
  bc : t.bc = s.bc
  ba : t.ba = s.ba

theorem SameSink.trans {s t u : State} (h : SameSink s t) (h' : SameSink t u) : SameSink s u where
  events := h'.events.trans h.events
  bn := h'.bn.trans h.bn
  bc := h'.bc.trans h.bc
  ba := h'.ba.trans h.ba

theorem getBits_sameSink {n v : Nat} {s t : State} (h : getBits n s = .ok v t) : SameSink s t := by
  obtain ⟨p, w, c, rfl⟩ := getBits_ok h
  exact ⟨rfl, rfl, rfl, rfl⟩

theorem setCur_sameSink (s : State) (cur : Byte) : SameSink s (s.setCur cur) := ⟨rfl, rfl, rfl, rfl⟩

theorem fetchNext_sameSink {n : Nat} {s t : State} {x : Unit} (h : fetchNext n s = .ok x t) : SameSink s t := by
  obtain ⟨p, w, c, b, rfl⟩ := fetchNext_eq h
  exact ⟨rfl, rfl, rfl, rfl⟩

theorem vertexPosition_sameSink {h6 : BitVec 6} {mbp : Bool} {s t : State} (h : vertexPosition h6 s = .ok mbp t) :
    SameSink s t := by
  obtain ⟨e, rm, fs, q, p, w, c, -, -, -, -, -, -, -, rfl⟩ := vertexPosition_ok h
  cases mbp <;> constructor <;> simp

theorem accumulateColor_sameSink {e : Entry} {fs : List Nat} {s t : State} {x : Unit}
    (h : accumulateColor e fs s = .ok x t) : SameSink s t := by
  obtain ⟨c, rfl, -⟩ := accumulateColor_ok h
  split <;> exact ⟨rfl, rfl, rfl, rfl⟩

theorem reuseNormal_sameSink {slot : Slot} {s t : State} {x : Unit} (h : reuseNormal slot s = .ok x t) : SameSink s t := by
  rcases reuseNormal_eq h with rfl | ⟨n, rfl⟩ <;> exact ⟨rfl, rfl, rfl, rfl⟩

theorem reuseColor_sameSink {slot : Slot} {s t : State} {x : Unit} (h : reuseColor slot s = .ok x t) : SameSink s t := by
  rcases reuseColor_ok.1 h with ⟨-, c, -, ⟨-, a, -, rfl⟩ | ⟨-, rfl⟩⟩ | ⟨-, rfl⟩ <;> exact ⟨rfl, rfl, rfl, rfl⟩

theorem meshReference_sameSink {k : BitVec 4} {r1 : Bool} {s t : State} {x : Unit} (h : meshReference k r1 s = .ok x t) :
    SameSink s t := by
  obtain ⟨r0, p, w, c, q, u, v, -, -, hu, hv, rfl⟩ := meshReference_ok h
  obtain ⟨⟩ := (reuseNormal_sameSink hu).trans (reuseColor_sameSink hv)
  constructor <;> assumption

/-! Normals and colors. -/

/-- A normal is sent with BN = 0 (42_normal.md rule R152). -/
def SendsNormal (s t : State) : Prop :=
  if s.bn then t.events = s.events else ∃ n, t.events = s.events ++ [.globalNormal n]

/-- A color is sent with BC = 0, with alpha exactly when BA = 1 (43_color.md rules R177, R178). -/
def SendsColor (s t : State) : Prop :=
  if s.bc then t.events = s.events else ∃ c, t.events = s.events ++ [.globalColor c] ∧ (c.a.isSome = s.ba)

theorem SameSink.sendsNormal {s t u : State} (h : SameSink s t) (h' : SendsNormal t u) : SendsNormal s u := by
  unfold SendsNormal at h' ⊢
  rwa [h.bn, h.events] at h'

theorem SameSink.sendsColor {s t u : State} (h : SameSink s t) (h' : SendsColor t u) : SendsColor s u := by
  unfold SendsColor at h' ⊢
  rwa [h.bc, h.ba, h.events] at h'

theorem SendsNormal.sameSink {s t : State} (h : SendsNormal s t) (hbn : s.bn = true) (ht : SameConfiguration s t) :
    SameSink s t := by
  rw [SendsNormal, if_pos hbn] at h
  exact ⟨h, ht.bn, ht.bc, ht.ba⟩

theorem SendsColor.sameSink {s t : State} (h : SendsColor s t) (hbc : s.bc = true) (ht : SameConfiguration s t) :
    SameSink s t := by
  rw [SendsColor, if_pos hbc] at h
  exact ⟨h, ht.bn, ht.bc, ht.ba⟩

theorem setNormalCommand_sends {h6 : BitVec 6} {mbp : Bool} {s t : State} {x : Unit}
    (h : setNormalCommand h6 mbp s = .ok x t) : SendsNormal s t := by
  obtain ⟨e, n, p, w, c, -, -, -, -, rfl⟩ := setNormalCommand_ok h
  unfold SendsNormal
  cases s.bn with
  | true => cases mbp <;> rfl
  | false => exact ⟨convert s.params n, by cases mbp <;> rfl⟩

theorem bundledNormal_sends {h6 : BitVec 6} {mbp : Bool} {s t : State} {x : Unit}
    (h : bundledNormal h6 mbp s = .ok x t) : SendsNormal s t := by
  rw [bundledNormal_promoted] at h
  obtain ⟨_, u, hu, h⟩ := Op.bind_ok.1 h
  have hpromoted := (setCur_sameSink s _).trans (fetchNext_sameSink hu)
  exact hpromoted.sendsNormal (setNormalCommand_sends h)

/-- The output of a color has alpha exactly when BA = 1. -/
theorem colorOut_alpha {s t : State} {v : ColorValue} (h : colorOut s = .ok v t) : v.a.isSome = s.ba := by
  obtain ⟨-, c, -, ⟨hba, a, -, rfl⟩ | ⟨hba, rfl⟩⟩ := colorOut_ok.1 h <;> rw [hba] <;> rfl

theorem setColorCommand_sends {h6 : BitVec 6} {mbp : Bool} {s t : State} {x : Unit}
    (h : setColorCommand h6 mbp s = .ok x t) : SendsColor s t := by
  obtain ⟨e, fs, p, w, c, r, -, -, -, hr, hquiet, hsend⟩ := setColorCommand_ok h
  have hfields : SameSink s (s.clearUseMc.setBfx p w c) := ⟨rfl, rfl, rfl, rfl⟩
  have hbody := hfields.trans (accumulateColor_sameSink hr)
  refine hbody.sendsColor ?_
  unfold SendsColor
  cases hbc : r.bc with
  | true => rw [hquiet hbc]; cases mbp <;> rfl
  | false =>
    obtain ⟨v, hv, rfl⟩ := hsend hbc
    refine ⟨v, ?_, (colorOut_alpha hv).trans ?_⟩ <;> cases mbp <;> rfl

theorem bundledColor_sends {h6 : BitVec 6} {mbp : Bool} {s t : State} {x : Unit}
    (h : bundledColor h6 mbp s = .ok x t) : SendsColor s t := by
  rw [bundledColor_promoted] at h
  obtain ⟨_, u, hu, h⟩ := Op.bind_ok.1 h
  have hpromoted := (setCur_sameSink s _).trans (fetchNext_sameSink hu)
  exact hpromoted.sendsColor (setColorCommand_sends h)

/-! Vertices. -/

/-- One vertex is sent, with the parts that are bundled and with REP (45_dispatch_control.md rule R216). -/
def SendsVertex (s t : State) : Prop :=
  ∃ p n c, t.events = s.events ++ [.vertex p n c t.rep] ∧
    (n.isSome = s.bn) ∧ (c.isSome = s.bc) ∧ ∀ v : ColorValue, c = some v → v.a.isSome = s.ba

theorem SameSink.sendsVertex {s t u : State} (h : SameSink s t) (h' : SendsVertex t u) : SendsVertex s u := by
  unfold SendsVertex at h' ⊢
  rwa [h.bn, h.bc, h.ba, h.events] at h'

theorem vertexNormal_isSome {s t : State} {n : Option Vec3} (h : vertexNormal s = .ok n t) : n.isSome = s.bn := by
  obtain ⟨-, ⟨hbn, m, -, rfl⟩ | ⟨hbn, rfl⟩⟩ := vertexNormal_ok.1 h <;> rw [hbn] <;> rfl

theorem vertexColor_isSome {s t : State} {c : Option ColorValue} (h : vertexColor s = .ok c t) :
    c.isSome = s.bc ∧ ∀ v, c = some v → v.a.isSome = s.ba := by
  obtain ⟨-, ⟨hbc, v, hv, rfl⟩ | ⟨hbc, rfl⟩⟩ := vertexColor_ok.1 h
  · exact ⟨hbc.symm, fun _ hc => by cases hc; exact colorOut_alpha hv⟩
  · exact ⟨hbc.symm, fun _ hc => by cases hc⟩

theorem emitVertex_sends {s t : State} {x : Unit} (h : emitVertex s = .ok x t) : SendsVertex s t := by
  obtain ⟨p, n, c, -, hn, hc, rfl⟩ := emitVertex_ok.1 h
  exact ⟨p.toFloats, n, c, rfl, vertexNormal_isSome hn, vertexColor_isSome hc⟩

/-- The bundled parts of a vertex, with the flags that ask for them, send nothing. -/
theorem bundledNormal_sameSink {h6 : BitVec 6} {mbp : Bool} {s t : State} {x : Unit} (hbn : s.bn = true)
    (h : bundledNormal h6 mbp s = .ok x t) : SameSink s t :=
  (bundledNormal_sends h).sameSink hbn ((bundledNormal_confined h6 mbp s).ok h).sameConfiguration

theorem bundledColor_sameSink {h6 : BitVec 6} {mbp : Bool} {s t : State} {x : Unit} (hbc : s.bc = true)
    (h : bundledColor h6 mbp s = .ok x t) : SameSink s t :=
  (bundledColor_sends h).sameSink hbc ((bundledColor_confined h6 mbp s).ok h).sameConfiguration

/-- A vertex step that completes sends what its emission sends. -/
theorem vertexStep_sends {h6 : BitVec 6} {s t : State} {x : Unit} (h : vertexStep h6 s = .ok x t) : SendsVertex s t := by
  obtain ⟨_, _, hs, h⟩ := Op.bind_ok.1 h
  cases hs
  cases hbn : s.bn <;> cases hbc : s.bc <;> simp only [hbn, hbc] at h
  all_goals
    obtain ⟨_, u, hu, h⟩ := Op.bind_ok.1 h
    obtain ⟨mbp, v, hv, h⟩ := Op.bind_ok.1 h
    have hsink := (fetchNext_sameSink hu).trans (vertexPosition_sameSink hv)
  · exact hsink.sendsVertex (emitVertex_sends h)
  all_goals
    obtain ⟨_, _, hs, h⟩ := Op.bind_ok.1 h
    cases hs
    obtain ⟨_, w, hw, h⟩ := Op.bind_ok.1 h
  · have hcolor := bundledColor_sameSink (hsink.bc.trans hbc) hw
    exact (hsink.trans hcolor).sendsVertex (emitVertex_sends h)
  · have hnormal := bundledNormal_sameSink (hsink.bn.trans hbn) hw
    exact (hsink.trans hnormal).sendsVertex (emitVertex_sends h)
  · have hnormal := hsink.trans (bundledNormal_sameSink (hsink.bn.trans hbn) hw)
    obtain ⟨_, _, hs, h⟩ := Op.bind_ok.1 h
    cases hs
    obtain ⟨_, w', hw', h⟩ := Op.bind_ok.1 h
    have hcolor := bundledColor_sameSink (hnormal.bc.trans hbc) hw'
    exact (hnormal.trans hcolor).sendsVertex (emitVertex_sends h)

/-! Commands. -/

/-- Every command that has nothing to do with vertices, but a set state, sends nothing. -/
theorem exec_events {i : Instr} {s t : State} (hi : aboutVertices i = false) (hset : ∀ x bn, i ≠ .sst x bn)
    (h : exec i s = .next t) (ht : t.status.isError = false) : t.events = s.events := by
  cases i with
  | vtx | nrm | col | mbr | nrmSub | colSub => cases hi
  | sst x bn => exact absurd rfl (hset x bn)
  | stb sel a6 =>
    have hcommand := runOp_completes h ht
    cases hk : tableOfSelect sel with
    | none =>
      simp only [setTableCommand, hk] at hcommand
      cases hcommand
    | some k =>
      simp only [setTableCommand, hk] at hcommand
      obtain ⟨v, u, hu, hcommand⟩ := Op.bind_ok.1 hcommand
      cases hcommand
      exact (State.setTable_events u k _).trans (getBits_sameSink hu).events
  | eos => cases h; rfl
  | skip8 =>
    obtain ⟨v, u, hu, h⟩ := Op.bind_ok.1 (runOp_completes h ht)
    cases h
    exact (getBits_sameSink hu).events
  | vnop | pass =>
    obtain ⟨v, u, hu, h⟩ := Op.bind_ok.1 (runOp_completes h ht)
    obtain ⟨v', u', hu', h⟩ := Op.bind_ok.1 h
    cases h
    exact ((getBits_sameSink hu).trans (getBits_sameSink hu')).events
  | reserved02 | reserved03 | reserved04 | reserved05 | reserved06 | reserved09 | reserved0A | reserved0B | reserved0C
  | reserved0D | reserved0E | reserved0F | stbReservedSelect a6 =>
    cases h
    cases ht

/-- A set state sends its flags (45_dispatch_control.md rule R218). -/
theorem exec_sst_sends {x : BitVec 2} {bn : Bool} {s t : State} (h : exec (.sst x bn) s = .next t)
    (ht : t.status.isError = false) : ∃ bc ba, t.events = s.events ++ [.vertexFormat bn bc ba] := by
  obtain ⟨v, u, hu, h⟩ := Op.bind_ok.1 (runOp_completes h ht)
  cases h
  exact ⟨_, _, congrArg (· ++ _) (getBits_sameSink hu).events⟩

/-- Settles O49, command by command: an emission, a normal, a color, a set state, or nothing. -/
theorem eventsPerCommand : Obligations.EventsPerCommand := by
  intro i s t h ht
  cases i
  case sst => exact exec_sst_sends h ht
  case vtx => exact vertexStep_sends (runOp_completes h ht)
  case mbr =>
    obtain ⟨u, hu, hemit⟩ := execMbr_ok h ht
    exact (meshReference_sameSink hu).sendsVertex (emitVertex_sends hemit)
  case nrm => exact setNormalCommand_sends (runOp_completes h ht)
  case nrmSub => exact bundledNormal_sends (runOp_completes h ht)
  case col => exact setColorCommand_sends (runOp_completes h ht)
  case colSub => exact bundledColor_sends (runOp_completes h ht)
  all_goals exact exec_events rfl (fun _ _ hi => by cases hi) h ht

end Sys2Proof.Machine
end

section
/-! The standalone color (43_color.md rules R170 to R178): its body sets C and A, and with BC = 0 the values it set are sent. -/

namespace Sys2Proof.Machine

/-- The output of a color whose parts are there (43_color.md rule R178). -/
theorem colorOut_eq {s : State} {c : Color} {a : Word16} (hc : s.color = some c) (ha : s.ba = true → s.alpha = some a) :
    colorOut s = .ok (colorValue s c a) s := by
  refine colorOut_ok.2 ⟨rfl, c, hc, ?_⟩
  cases hba : s.ba with
  | true => exact .inl ⟨rfl, a, ha hba, by simp [colorValue, Color.toFloats, hba]⟩
  | false => exact .inr ⟨rfl, by simp [colorValue, Color.toFloats, hba]⟩

/-- The values just written are there to be sent. -/
theorem colorOut_setColorAlpha (s : State) (c : Color) (a : Word16) :
    colorOut (s.setColorAlpha c a) = .ok (colorValue s c a) (s.setColorAlpha c a) :=
  colorOut_eq rfl fun hba => if_pos hba

/-- Without a push the tail of a color command only sends, with BC = 0 (43_color.md rule R177). -/
theorem colorTail_setColorAlpha (s : State) (c : Color) (a : Word16) :
    colorTail false (s.setColorAlpha c a) = .ok ()
      (if s.bc then s.setColorAlpha c a else (s.setColorAlpha c a).emit (.globalColor (colorValue s c a))) := by
  cases hbc : s.bc with
  | true => exact colorTail_bundled false hbc
  | false =>
    have hbc' : (s.setColorAlpha c a).bc = false := hbc
    simp [colorTail, Op.bind_eq, hbc', colorOut_setColorAlpha]

/-- What a standalone color sets: the updates of its body, and the event with BC = 0. -/
theorem colorSet_standalone (s : State) (taken : Nat) (c : Color) (a : Word16) :
    colorSet s false taken c a =
      if s.bc then (consume s taken).clearUseMc.setColorAlpha c a
      else ((consume s taken).clearUseMc.setColorAlpha c a).emit (.globalColor (colorValue s c a)) := by
  obtain ⟨p, w, n, hset⟩ := consume_eq_setBfx s taken
  rw [colorSet, hset]
  cases s.bc <;> rfl

/-- Settles O39: the body writes the values, and the tail sends what was written. -/
theorem colorExecutes : Obligations.ColorExecutes := by
  intro s h6 e c0 a0 hsel hthere taken hread
  have hbody := colorBody_eq hsel hthere hread
  have htail := colorTail_setColorAlpha (consume s taken).clearUseMc (colorAfter s h6 e 0 c0) (alphaAfter s h6 e 0 a0)
  have hcommand : setColorCommand h6 false s = _ :=
    (congrFun (setColorCommand_eq h6 false) s).trans (Op.bind_ok.2 ⟨_, _, hbody, htail⟩)
  obtain ⟨p, w, n, hset⟩ := consume_eq_setBfx s taken
  rw [colorSet_standalone]
  rw [hset] at hcommand ⊢
  exact runOp_ok hcommand

end Sys2Proof.Machine
end

section
/-! The mesh buffer reference (44_mesh_reference.md rules R190 to R197; 45_dispatch_control.md rules R216, R217, R223): its one
body bit completes REP, the slot gives the parts that are taken, and the emission sets again the two flags that the
reference clears. -/

namespace Sys2Proof.Machine

/-! The body bit. -/

theorem peek_one (s : State) (i : Nat) : peek s i 1 = (bitAt s i).toNat := by
  simp [peek, ofBits]

/-- A one-bit body is its bit. -/
theorem ofNat_peek_one (s : State) (i : Nat) : BitVec.ofNat 1 (peek s i 1) = BitVec.ofBool (bitAt s i) := by
  rw [peek_one]
  cases bitAt s i <;> rfl

/-! The parts of the slot. -/

section
variable {slot : Slot} {s : State}

/-- The state after N is taken from the slot, where it is bundled and no normal ran since the last vertex (44_mesh_reference.md
rule R194). -/
def withSlotNormal (slot : Slot) (s : State) : State :=
  { s with normal := if s.bn && s.useMn then slot.normal else s.normal }

/-- The state after C and A are taken from the slot, where they are bundled and no color ran since the last vertex
(44_mesh_reference.md rule R195). -/
def withSlotColor (slot : Slot) (s : State) : State :=
  { s with
    color := if s.bc && s.useMc then slot.color else s.color
    alpha := if s.bc && s.useMc && s.ba then slot.alpha else s.alpha }

theorem reuseNormal_withSlotNormal {n : Normal} (hn : (s.bn && s.useMn) = true → slot.normal = some n) :
    reuseNormal slot s = .ok () (withSlotNormal slot s) := by
  refine reuseNormal_ok.2 ?_
  cases htake : s.bn && s.useMn with
  | true => exact .inl ⟨rfl, n, hn htake, by simp [withSlotNormal, State.setNormal, htake, hn]⟩
  | false => exact .inr ⟨rfl, by simp [withSlotNormal, htake]⟩

theorem reuseColor_withSlotColor {c : Color} {a : Word16} (hc : (s.bc && s.useMc) = true → slot.color = some c)
    (ha : (s.bc && s.useMc && s.ba) = true → slot.alpha = some a) :
    reuseColor slot s = .ok () (withSlotColor slot s) := by
  refine reuseColor_ok.2 ?_
  cases htake : s.bc && s.useMc with
  | false => exact .inr ⟨rfl, by simp [withSlotColor, htake]⟩
  | true =>
    refine .inl ⟨rfl, c, hc htake, ?_⟩
    cases hba : s.ba with
    | true =>
      have halpha : slot.alpha = some a := ha (by rw [htake, hba]; rfl)
      exact .inl ⟨rfl, a, halpha, by simp [withSlotColor, State.setColor, State.setAlpha, htake, hba, hc, halpha]⟩
    | false => exact .inr ⟨rfl, by simp [withSlotColor, State.setColor, htake, hba, hc]⟩

end

/-! The reference and the emission. -/

/-- The state from which a reference to a slot with the position `p` emits, the two mesh-use flags not yet cleared
(44_mesh_reference.md rules R191 to R195). -/
def referenced (s : State) (k : BitVec 4) (r1 : Bool) (p : Position) : State :=
  { consume s 1 with
    rep := BitVec.ofBool r1 ++ BitVec.ofBool (bitAt s 0)
    pos := some p
    normal := if s.bn && s.useMn then (s.slot (s.wi - k)).normal else s.normal
    color := if s.bc && s.useMc then (s.slot (s.wi - k)).color else s.color
    alpha := if s.bc && s.useMc && s.ba then (s.slot (s.wi - k)).alpha else s.alpha }

section
variable {s : State} {k : BitVec 4} {r1 : Bool} {p : Position} {n : Normal} {c : Color} {a : Word16}

/-- The parts taken follow each other: REP, P, N, then C and A. -/
theorem referenced_eq (s : State) (k : BitVec 4) (r1 : Bool) (p : Position) :
    referenced s k r1 p = withSlotColor (s.slot (s.wi - k)) (withSlotNormal (s.slot (s.wi - k))
      (((consume s 1).setRep (BitVec.ofBool r1 ++ BitVec.ofBool (bitAt s 0))).setPos p)) := by
  obtain ⟨q, w, m, hset⟩ := consume_eq_setBfx s 1
  rw [referenced, hset]
  rfl

/-- What the emission needs and the reference takes, the slot holds. -/
theorem slot_parts_of_emits (h : Emits (referenced s k r1 p) p n c a) :
    ((s.bn && s.useMn) = true → (s.slot (s.wi - k)).normal = some n) ∧
      ((s.bc && s.useMc) = true → (s.slot (s.wi - k)).color = some c) ∧
      ((s.bc && s.useMc && s.ba) = true → (s.slot (s.wi - k)).alpha = some a) := by
  obtain ⟨q, w, m, hset⟩ := consume_eq_setBfx s 1
  rw [referenced, hset] at h
  obtain ⟨-, hn, hc, ha⟩ := h
  refine ⟨fun htake => ?_, fun htake => ?_, fun htake => ?_⟩
  · rw [if_pos htake] at hn
    exact hn (Bool.and_eq_true_iff.1 htake).1
  · rw [if_pos htake] at hc
    exact hc (Bool.and_eq_true_iff.1 htake).1
  · rw [if_pos htake] at ha
    obtain ⟨hcolor, hba⟩ := Bool.and_eq_true_iff.1 htake
    exact ha ⟨(Bool.and_eq_true_iff.1 hcolor).1, hba⟩

/-- 44_mesh_reference.md rules R190 to R196: a reference whose parts are there takes them and clears the mesh-use flags. -/
theorem meshReference_referenced (hread : Readable s 1) (hpos : (s.slot (s.wi - k)).pos = some p)
    (hemits : Emits (referenced s k r1 p) p n c a) :
    meshReference k r1 s = .ok () (referenced s k r1 p).clearMeshUse := by
  obtain ⟨hn, hc, ha⟩ := slot_parts_of_emits hemits
  have hbit := getBits_eq_peek (by decide) hread
  rw [referenced_eq]
  obtain ⟨q, w, m, hset⟩ := consume_eq_setBfx s 1
  rw [hset] at hbit ⊢
  refine Op.bind_ok.2 ⟨_, _, hbit, Op.bind_ok.2 ⟨(), _, rfl, Op.bind_ok.2 ⟨_, _, rfl, ?_⟩⟩⟩
  rw [ofNat_peek_one]
  refine Op.bind_ok.2 ⟨p, _, need_ok.2 ⟨hpos, rfl⟩, Op.bind_ok.2 ⟨(), _, rfl, ?_⟩⟩
  exact Op.bind_ok.2 ⟨(), _, reuseNormal_withSlotNormal hn, Op.bind_ok.2 ⟨(), _, reuseColor_withSlotColor hc ha, rfl⟩⟩

end

/-- 45_dispatch_control.md rule R217: the emission sets the flags, whatever they were. -/
theorem emitted_clearMeshUse (s : State) (p : Position) (n : Normal) (c : Color) (a : Word16) :
    emitted s.clearMeshUse p n c a = emitted s p n c a := rfl

/-- Settles O41: the reference takes the parts of its slot, and the emission sends them and sets the flags again. -/
theorem meshReferenceExecutes : Obligations.MeshReferenceExecutes := by
  intro s k r1 p n c a hread j takeN takeC t hpos hemits
  have hreference : meshReference k r1 s = .ok () t.clearMeshUse := meshReference_referenced hread hpos hemits
  have hemission : emitVertex t.clearMeshUse = .ok () (emitted t p n c a) :=
    (emitVertex_eq (s := t.clearMeshUse) hemits).trans (by rw [emitted_clearMeshUse])
  exact runOp_ok (Op.bind_ok.2 ⟨(), _, hreference, hemission⟩)

end Sys2Proof.Machine
end

section
/-! The step (45_dispatch_control.md rules R210 to R213, R227): which command it executes, its end, and the errors of a step and
of a Decode call's pre-checks. -/

namespace Sys2Proof.Machine

/-! The command of a step. -/

theorem decodeHeader_vertex {h : Byte} (hclass : h.extractLsb' 6 2 = 1#2) : decodeHeader h = .vtx (h.extractLsb' 0 6) := by
  simp [decodeHeader, hclass]

/-- A header of another class runs behind its lookahead fetch. -/
theorem dispatch_fetch_ok {s t : State} (hclass : s.nxt.extractLsb' 6 2 ≠ 1#2)
    (hf : fetchNext 8 (s.setCur s.nxt) = .ok () t) : dispatch s = exec (decodeHeader s.nxt) t := by
  have hfetch : fetch s = .ok (decodeHeader s.nxt) t := by
    simp [fetch, Op.bind_eq, Op.map_eq, isVertexHeader, hclass, hf]
  rw [dispatch, hfetch]

/-- Settles O8, by the class of the header in NXT: only a header that is no vertex has its lookahead fetched first. -/
theorem stepRunsDecodedCommand : Obligations.StepRunsDecodedCommand := by
  intro s hcall hrun hmore
  rw [step_of_running hcall hrun hmore]
  refine ⟨fun hclass => ?_, fun hclass hread => ?_⟩
  · rw [dispatch_vertex hclass, decodeHeader_vertex hclass]
    rfl
  · rw [dispatch_fetch_ok hclass (fetchNext_first (s := s.setCur s.nxt) (by decide) hread), consume_setCur]
    rfl

/-! A machine that runs nothing. -/

/-- With no call pending, an instance that is not running waits. -/
theorem step_of_waiting {s : State} (hcall : s.call = none) (hrun : s.status ≠ .run) : step s = .next s.await := by
  cases hst : s.status with
  | run => exact absurd hst hrun
  | idle | done | error e => simp only [step, hcall, hst]

/-- Settles O10: the end of the loop sets STATUS, and waiting changes DONE only. -/
theorem exhaustedOrStoppedDecodeRunsNothing : Obligations.ExhaustedOrStoppedDecodeRunsNothing := by
  intro s hcall
  refine ⟨fun hrun hp hc => ?_, fun hdone => ?_, fun hstopped => ?_⟩
  · exact step_of_exhausted hcall hrun (moreBits_false.2 ⟨hp, hc⟩)
  · rw [step_of_waiting hcall (by simp [hdone]), State.await, hdone]
    rfl
  · have hst : s.status ≠ .run ∧ s.status ≠ .done := by
      rcases hstopped with h | h
      · simp [h]
      · exact ⟨fun hrun => by simp [hrun, Status.isError] at h, fun hdone => by simp [hdone, Status.isError] at h⟩
    rw [step_of_waiting hcall hst.1, State.await_eq s hst.2]

/-! Errors. -/

/-- Settles O11: each listed code is the code of its reason, and an error records that code. -/
theorem errorEntryRecords : Obligations.ErrorEntryRecords := by
  unfold Obligations.ErrorEntryRecords
  intro raised prechecks
  have hraised : ∀ entry ∈ raised, entry.2 = entry.1.code := by decide
  have hprechecks : ∀ entry ∈ prechecks, entry.2 = entry.1.code := by decide
  refine ⟨fun r => ⟨r.code, by cases r <;> decide⟩, fun s r i code hmem => ?_, fun s r i code hmem => ?_⟩
  · obtain rfl : code = r.code := hraised _ hmem
    exact ⟨rfl, enterError_events s r i⟩
  · obtain rfl : code = r.code := hprechecks _ hmem
    exact ⟨rfl, enterPrecheck_events s r i⟩

/-! Pre-checks. -/

/-- Settles O14: the gate's test, read as a proposition. -/
theorem versionGateComparesMajorThenMinor : Obligations.VersionGateComparesMajorThenMinor := by
  intro params vmaj vmin vminmin
  simp only [versionOk, Bool.or_eq_true, Bool.and_eq_true, decide_eq_true_eq]

/-- Settles O13, by the three ends of a decode start: the first two are the errors of the pre-checks. -/
theorem prechecksRejectBeforeDecoding : Obligations.PrechecksRejectBeforeDecoding := by
  intro s array start len vmaj vmin vminmin hcall hrun size
  have hstep : step s =
      .next (decodeStart start len vmaj vmin vminmin ((s.setCall none).supplyArray array)) := by
    rw [step_of_call hcall, takeCall_decode_waiting array start len vmaj vmin vminmin hrun]
  have hsize : ((s.setCall none).supplyArray array).hostSize = size := supplyArray_hostSize_eq (s.setCall none) array
  have hcases := decodeStart_cases start len vmaj vmin vminmin ((s.setCall none).supplyArray array)
  rw [hsize] at hcases
  refine ⟨fun hbounds => ⟨_, hstep, ?_⟩, fun hbounds hversion => ⟨_, hstep, ?_⟩⟩
  · rcases hcases with ⟨-, h⟩ | ⟨hle, -⟩ | ⟨hle, -⟩
    · rw [h]
      exact ⟨rfl, rfl⟩
    · omega
    · omega
  · rcases hcases with ⟨hlt, -⟩ | ⟨-, -, h⟩ | ⟨-, hok, -⟩
    · omega
    · rw [h]
      exact ⟨rfl, rfl⟩
    · exact absurd (hok.symm.trans hversion) (by decide)

end Sys2Proof.Machine
end

section
/-! A vertex with bundled parts (45_dispatch_control.md rules R213, R215): behind its position the parts that BN and BC ask for
run as commands of their own, and only a vertex whose parts complete is emitted. -/

namespace Sys2Proof.Machine

/-! The vertex step in its three parts. -/

/-- The bundled parts of a vertex whose push bit is `mbp`: the normal first, then the color of the subheader that the normal's
fetch left in NXT. -/
def bundledParts : Bool → Bool → Bool → Op Unit
  | false, false, _ => pure ()
  | true, false, mbp => do bundledNormal (← get).fetchedSub mbp
  | false, true, mbp => do bundledColor (← get).fetchedSub mbp
  | true, true, mbp => do
    bundledNormal (← get).fetchedSub mbp
    bundledColor (← get).fetchedSub mbp

/-- A vertex step fetches, decodes its position, runs its bundled parts, and is emitted. -/
theorem vertexStep_eq (h6 : BitVec 6) (s : State) : vertexStep h6 s =
    (fetchNext (if s.bn = true ∨ s.bc = true then 6 else 8) >>= fun _ => vertexPosition h6 >>= fun mbp =>
      bundledParts s.bn s.bc mbp >>= fun _ => emitVertex) s := by
  rw [vertexStep, Op.bind_eq]
  cases hbn : s.bn <;> cases hbc : s.bc <;> simp [bundledParts, hbn, hbc]

theorem bundledParts_confined (bn bc mbp : Bool) (s : State) : (bundledParts bn bc mbp).Confined s := by
  cases bn <;> cases bc
  · exact .pure ()
  · exact .get_bind (bundledColor_confined _ _ s)
  · exact .get_bind (bundledNormal_confined _ _ s)
  · exact .get_bind (.bind (bundledNormal_confined _ _ s) fun _ u _ => .get_bind (bundledColor_confined _ _ u))

/-! A command that goes on behind another. -/

/-- Behind a command that completes in a running decode the rest runs; behind one that fails, nothing. -/
theorem runOp_then {m : Op Unit} {f : Unit → Op Unit} {s t : State} (hm : m.Confined s) (hrun : s.status = .run)
    (h : runOp m s = .next t) :
    (t.status = .run → runOp (m >>= f) s = runOp (f ()) t) ∧ (t.status ≠ .run → runOp (m >>= f) s = .next t) := by
  rcases runOp_next.1 h with hok | ⟨r, i, u, herr, rfl⟩
  · refine ⟨fun _ => ?_, fun hne => absurd ((hm.ok hok).status.trans hrun) hne⟩
    rw [runOp, runOp, Op.bind_eq, hok]
  · exact ⟨fun hno => (by cases hno), fun _ => runOp_raise (Op.bind_error.2 (.inl herr))⟩

/-! The bundled vertex. -/

section
variable {s t : State} {h6 : BitVec 6} {e : Entry} {p0 : Position}

theorem positioned_status (s : State) (h6 : BitVec 6) (e : Entry) (w : Nat) (p0 : Position) :
    (positioned s h6 e w p0).status = s.status := by
  obtain ⟨p, win, c, hset⟩ := consume_eq_setBfx s (w + (e.tagLength + 3 * e.fieldLength - 3))
  rw [positioned, hset]
  rfl

/-- NXT holds the subheader that the vertex has fetched. -/
theorem positioned_fetchedSub (s : State) (h6 : BitVec 6) (e : Entry) (p0 : Position) :
    (positioned s h6 e 6 p0).fetchedSub = BitVec.ofNat 6 (peek s 0 6) := by
  change (BitVec.ofNat 8 (peek s 0 6)).extractLsb' 0 6 = _
  rw [← BitVec.setWidth_eq_extractLsb' (by decide), BitVec.setWidth_ofNat_of_le (by decide)]

/-- A vertex with a bundled part whose position is decoded ends as its parts do: emitted, or in their error. -/
theorem exec_vtx_bundled (hsel : Selects s .position h6 e) (hfit : 3 ≤ e.tagLength + 3 * e.fieldLength)
    (hbundled : s.bn = true ∨ s.bc = true) (hrun : s.status = .run) (hpos : e.absolute = false → s.pos = some p0)
    (hread : Readable s (6 + (e.tagLength + 3 * e.fieldLength - 3)))
    (hparts : runOp (bundledParts s.bn s.bc ((vertexRm s h6 e 6).getLsbD 0)) (positioned s h6 e 6 p0) = .next t) :
    (∀ p n c a, t.status = .run → Emits t p n c a → exec (.vtx h6) s = .next (emitted t p n c a)) ∧
      (t.status ≠ .run → exec (.vtx h6) s = .next t) := by
  have hexec : exec (.vtx h6) s =
      runOp (bundledParts s.bn s.bc ((vertexRm s h6 e 6).getLsbD 0) >>= fun _ => emitVertex)
        (positioned s h6 e 6 p0) := by
    refine runOp_congr ?_
    rw [vertexStep_eq, if_pos hbundled, Op.bind_eq, fetchNext_first (by decide) (hread.mono (Nat.le_add_right _ _))]
    dsimp only
    rw [Op.bind_eq, vertexPosition_eq hsel hfit hpos hread]
  rw [hexec]
  obtain ⟨hcompletes, hfails⟩ := runOp_then (f := fun _ => emitVertex) (bundledParts_confined _ _ _ _)
    ((positioned_status s h6 e 6 p0).trans hrun) hparts
  exact ⟨fun p n c a ht hemits => (hcompletes ht).trans (runOp_ok (emitVertex_eq hemits)), hfails⟩

end

/-- Settles O25: the one bundled part is the normal of the fetched subheader. -/
theorem vertexWithNormalExecutes : Obligations.VertexWithNormalExecutes := by
  intro s t h6 e p0 p n c a hsel hfit hbn hbc hrun hpos hread hnormal
  rw [← positioned_fetchedSub s h6 e p0] at hnormal
  have hvertex := exec_vtx_bundled (t := t) hsel hfit (.inl hbn) hrun hpos hread
  rw [hbn, hbc] at hvertex
  obtain ⟨hemitted, hfails⟩ := hvertex hnormal
  exact ⟨hemitted p n c a, hfails⟩

/-- Settles O26: the one bundled part is the color of the fetched subheader. -/
theorem vertexWithColorExecutes : Obligations.VertexWithColorExecutes := by
  intro s t h6 e p0 p n c a hsel hfit hbn hbc hrun hpos hread hcolor
  rw [← positioned_fetchedSub s h6 e p0] at hcolor
  have hvertex := exec_vtx_bundled (t := t) hsel hfit (.inr hbc) hrun hpos hread
  rw [hbn, hbc] at hvertex
  obtain ⟨hemitted, hfails⟩ := hvertex hcolor
  exact ⟨hemitted p n c a, hfails⟩

/-- Settles O27: behind a normal that completes the parts end as the color does, else as the normal. -/
theorem vertexWithNormalAndColorExecutes : Obligations.VertexWithNormalAndColorExecutes := by
  intro s u h6 e p0 hsel hfit hbn hbc hrun hpos hread mbp hnormal
  rw [← positioned_fetchedSub s h6 e p0] at hnormal
  obtain ⟨hcolor, hfails⟩ := runOp_then (f := fun _ => do bundledColor (← get).fetchedSub mbp)
    (bundledNormal_confined _ _ _) ((positioned_status s h6 e 6 p0).trans hrun) hnormal
  have hvertex := fun t => exec_vtx_bundled (t := t) hsel hfit (.inl hbn) hrun hpos hread
  rw [hbn, hbc] at hvertex
  refine ⟨fun hne => (hvertex u (hfails hne)).2 hne, fun t p n c a hu ht => ?_⟩
  have hsub : u.nxt.setWidth 6 = u.fetchedSub := BitVec.setWidth_eq_extractLsb' (by decide)
  rw [hsub] at ht
  obtain ⟨hemitted, hfails'⟩ := hvertex t ((hcolor hu).trans ht)
  exact ⟨hemitted p n c a, hfails'⟩

end Sys2Proof.Machine
end

section
/-! The bound of a decode (45_dispatch_control.md rules R211, R212; 60_exceptions.md rule R258): a step that leaves the decode
running has fetched a header or a subheader, so it has taken at least 6 of the bits before E. -/

namespace Sys2Proof.Machine

/-! How far a step moves the stream. -/

/-- A request of a sound extractor that is answered has taken its bits: a word that is missing stops it. -/
theorem getBits_ok_bitpos {n v : Nat} {s t : State} (hs : BfxSound s) (hn : n ≤ 32) (h : getBits n s = .ok v t) :
    t.bitpos = s.bitpos + n := by
  obtain ⟨-, -, hend, -, hc, -⟩ := hs
  by_cases hread : Readable s n
  · rw [getBits_eq_peek hn hread] at h
    cases h
    exact (consume_readTo s n).bitpos
  · have hdry : ¬ n ≤ s.c + 32 * ((s.endAddr - s.p) / 4) := fun hbits => hread ⟨hc, hend, hbits⟩
    rw [getBits_pastEnd (by omega) (by omega)] at h
    cases h

theorem fetchNext_ok_bitpos {n : Nat} {s t : State} {x : Unit} (hs : BfxSound s) (hn : n ≤ 32)
    (h : fetchNext n s = .ok x t) : t.bitpos = s.bitpos + n := by
  obtain ⟨b, u, hu, rfl⟩ := fetchNext_ok.1 h
  rw [State.setNxt_bitpos]
  exact getBits_ok_bitpos hs hn hu

/-- A vertex that completes has taken its lookahead. -/
theorem exec_vtx_bitpos {h6 : BitVec 6} {s t : State} (hs : BfxSound s) (h : exec (.vtx h6) s = .next t)
    (ht : t.status.isError = false) : s.bitpos + 6 ≤ t.bitpos := by
  have hstep := runOp_completes h ht
  rw [vertexStep_eq] at hstep
  obtain ⟨_, u, hu, hrest⟩ := Op.bind_ok.1 hstep
  have hfetched := fetchNext_ok_bitpos hs (by split <;> decide) hu
  have hmoves : Moves u t := (Op.Confined.bind (vertexPosition_confined h6 u) fun mbp v _ =>
    .bind (bundledParts_confined _ _ mbp v) fun _ w _ => emitVertex_confined w).ok hrest
  have hle := hmoves.bitpos_le
  split at hfetched <;> omega

/-- A dispatcher iteration that does not fail takes at least a subheader. -/
theorem dispatch_bitpos {s t : State} (hs : BfxSound s) (h : dispatch s = .next t) (ht : t.status.isError = false) :
    s.bitpos + 6 ≤ t.bitpos := by
  by_cases hclass : s.nxt.extractLsb' 6 2 = 1#2
  · rw [dispatch_vertex hclass] at h
    exact exec_vtx_bitpos (s := s.setCur s.nxt) hs h ht
  · cases hf : fetchNext 8 (s.setCur s.nxt) with
    | error e u =>
      rw [dispatch_fetch_error hclass hf] at h
      cases e with
      | raise r i => cases h; cases ht
      | noByte a => cases h
    | ok x u =>
      have hfetched := fetchNext_ok_bitpos (s := s.setCur s.nxt) hs (by decide) hf
      rw [State.setCur_bitpos] at hfetched
      rw [dispatch_fetch_ok hclass hf] at h
      have hle := streamPositionOnlyAdvances _ _ _ h ht
      omega

/-- Where the cursor stands before E, the bits before E are those behind the stream offset. -/
theorem bitsBeforeEnd_eq {s : State} (hs : BfxSound s) : (bitsBeforeEnd s : Int) = 8 * s.len - s.bitpos := by
  obtain ⟨-, hend, -⟩ := hs
  unfold bitsBeforeEnd State.bitpos
  unfold State.endAddr at hend ⊢
  omega

/-- A step that leaves a decode running has taken at least 6 of its bits. -/
theorem bitsBeforeEnd_step {s t : State} (hs : Sound s) (hcall : s.call = none) (hrun : s.status = .run)
    (h : step s = .next t) (ht : t.status = .run) : bitsBeforeEnd t + 6 ≤ bitsBeforeEnd s := by
  obtain ⟨-, -, hregs'⟩ := stepKeepsSound s t hs h
  obtain ⟨-, -, hregs⟩ := hs
  have hbfx := (registersSound_iff.1 (hregs (.inl hrun))).1
  have hbfx' := (registersSound_iff.1 (hregs' (.inl ht))).1
  cases hmore : s.moreBits with
  | false =>
    rw [step_of_exhausted hcall hrun hmore] at h
    cases h
    cases ht
  | true =>
    rw [step_of_running hcall hrun hmore] at h
    obtain ⟨i, u, hmoves, hends⟩ := dispatch_ends h
    have hlen := (hmoves.sameRequest.trans hends.sameRequest).len
    have hadvance := dispatch_bitpos hbfx h (by rw [ht]; rfl)
    have hbits := bitsBeforeEnd_eq hbfx
    have hbits' := bitsBeforeEnd_eq hbfx'
    rw [hlen] at hbits'
    omega

/-! Runs. -/

theorem core_run_succ {M : Host.Core} {s t : M.State} (k : Nat) (h : M.step s = .next t) :
    M.run (k + 1) s = M.run k t := by
  rw [Host.Core.run, h]

theorem run_succ {s t : State} (k : Nat) (h : step s = .next t) :
    Host.Core.run Sys2Proof.core (k + 1) s = Host.Core.run Sys2Proof.core k t :=
  core_run_succ (M := Sys2Proof.core) k h

/-- With no call pending, an instance that is not running never runs. -/
theorem run_of_waiting (k : Nat) {s : State} (hcall : s.call = none) (hrun : s.status ≠ .run) :
    ∃ t, Host.Core.run Sys2Proof.core k s = .next t ∧ t.status ≠ .run := by
  induction k generalizing s with
  | zero => exact ⟨s, rfl, hrun⟩
  | succ k ih =>
    rw [run_succ k (step_of_waiting hcall hrun)]
    refine ih hcall ?_
    rw [State.await_status]
    cases hst : s.status with
    | run => exact absurd hst hrun
    | idle | done | error e => simp

/-- A sound decode with fewer than `6 k` bits before E has ended after `k` steps. -/
theorem run_ends (k : Nat) {s : State} (hs : Sound s) (hcall : s.call = none) (hbits : bitsBeforeEnd s < 6 * k) :
    ∃ t, Host.Core.run Sys2Proof.core k s = .next t ∧ t.status ≠ .run := by
  induction k generalizing s with
  | zero => omega
  | succ k ih =>
    by_cases hrun : s.status = .run
    · obtain ⟨t, hstep, hcall'⟩ := soundStepHasNextState s hs hcall
      rw [run_succ k hstep]
      by_cases ht : t.status = .run
      · have hless := bitsBeforeEnd_step hs hcall hrun hstep ht
        exact ih (stepKeepsSound s t hs hstep) hcall' (by omega)
      · exact run_of_waiting k hcall' ht
    · exact run_of_waiting (k + 1) hcall hrun

/-- Settles O56: the bits before E are fewer than 6 for every 6 of them and 6 more. -/
theorem decodeIsBoundedByInput : Obligations.DecodeIsBoundedByInput := by
  intro s hs hcall
  exact run_ends (bitsBeforeEnd s / 6 + 1) hs hcall (by omega)

end Sys2Proof.Machine
end

section
/-! A failing step sends nothing (60_exceptions.md rule R254): each command sends its one event with its last write, when nothing
can fail any more, and the bundled parts of a vertex, which run before the emission, send none. -/

namespace Sys2Proof.Machine

/-! Computations that send nothing where they stop. -/

/-- From `s` the computation `m` ends with STATUS as it was when it completes, and with no event sent when it stops. -/
structure Op.SilentStop {α : Type} (m : Op α) (s : State) : Prop where
  status : ∀ {a t}, m s = .ok a t → t.status = s.status
  events : ∀ {e t}, m s = .error e t → t.events = s.events

namespace Op.SilentStop

variable {α β : Type} {s : State} {m : Op α} {f : α → Op β}

/-- Only the last part of a sequence may send an event. -/
theorem bind (hm : m.SilentStop s) (hf : ∀ a u, m s = .ok a u → u.events = s.events ∧ (f a).SilentStop u) :
    (m >>= f).SilentStop s where
  status h := by
    obtain ⟨a, u, hu, ht⟩ := Op.bind_ok.1 h
    exact ((hf a u hu).2.status ht).trans (hm.status hu)
  events h := by
    rcases Op.bind_error.1 h with he | ⟨a, u, hu, he⟩
    · exact hm.events he
    · obtain ⟨hquiet, hstop⟩ := hf a u hu
      exact (hstop.events he).trans hquiet

theorem pure (a : α) : (Pure.pure a : Op α).SilentStop s where
  status h := by cases h; rfl
  events h := by cases h

theorem raise (r : Reason) (i : Info) : (raise r i : Op α).SilentStop s where
  status h := by cases h
  events h := by cases h; rfl

theorem update {g : State → State} (hg : (g s).status = s.status) : (update g).SilentStop s where
  status h := by cases h; exact hg
  events h := by cases h

theorem update_bind {g : State → State} {f : Unit → Op β} (hg : (g s).status = s.status ∧ (g s).events = s.events)
    (hf : (f ()).SilentStop (g s)) : (Machine.update g >>= f).SilentStop s :=
  bind (update hg.1) fun _ _ h => by cases h; exact ⟨hg.2, hf⟩

theorem emit (e : Event) : (Machine.emit e).SilentStop s := update rfl

theorem get_bind {g : State → Op β} (hg : (g s).SilentStop s) : ((MonadState.get : Op State) >>= g).SilentStop s :=
  bind ⟨fun h => by cases h; rfl, fun h => by cases h⟩ fun _ _ h => by cases h; exact ⟨rfl, hg⟩

/-- A computation that moves, and stops in a state where nothing was sent. -/
theorem of_confined (hm : m.Confined s) (hstop : ∀ {e t}, m s = .error e t → t.events = s.events) : m.SilentStop s where
  status h := (hm.ok h).status
  events := hstop

/-- A computation that changes nothing, before the rest. -/
theorem bind_unchanged (hm : m.SilentStop s) (hsame : ∀ {a t}, m s = .ok a t → t = s) (hf : ∀ a, (f a).SilentStop s) :
    (m >>= f).SilentStop s :=
  hm.bind fun a u hu => by cases hsame hu; exact ⟨rfl, hf a⟩

theorem need_bind {v : Option α} (hf : ∀ a, (f a).SilentStop s) : (need v >>= f).SilentStop s := by
  cases v with
  | none => exact raise _ _
  | some a => exact hf a

end Op.SilentStop

/-! Reads of the stream and of the tables. -/

theorem getBits_silentStop (n : Nat) (s : State) : (getBits n).SilentStop s :=
  .of_confined (getBits_confined n s) fun h => by
    obtain ⟨⟨p, w, c, rfl⟩, -⟩ := getBits_error h
    rfl

section
variable {β : Type} {s : State}

theorem getBits_bind_silentStop {n : Nat} {f : Nat → Op β} (hf : ∀ v u, (f v).SilentStop u) :
    (getBits n >>= f).SilentStop s :=
  (getBits_silentStop n s).bind fun v u hu => ⟨(getBits_sameSink hu).events, hf v u⟩

theorem unpack_bind_silentStop {h6 : BitVec 6} {n : Nat} {ws : List Nat} {f : List Nat → Op β}
    (hf : ∀ fs u, (f fs).SilentStop u) : (unpack h6 n ws >>= f).SilentStop s := by
  refine .bind (.of_confined (unpack_confined h6 n ws s) fun h => ?_) fun fs u hu => ⟨?_, hf fs u⟩
  · obtain ⟨⟨p, w, c, rfl⟩, -⟩ := unpack_error h
    rfl
  · obtain ⟨-, p, w, c, rfl⟩ := unpack_ok hu
    rfl

theorem lookup_bind_silentStop {k : TableId} {h6 : BitVec 6} {f : Entry → Op β} (hf : ∀ e, (f e).SilentStop s) :
    (lookup k h6 >>= f).SilentStop s := by
  refine .bind_unchanged (.of_confined (lookup_confined k h6 s) fun h => ?_) (fun h => (lookup_ok.1 h).2.2) hf
  rw [lookup_eq] at h
  split at h
  · cases h; rfl
  · split at h <;> cases h
    rfl

end

theorem fetchNext_silentStop (n : Nat) (s : State) : (fetchNext n).SilentStop s :=
  getBits_bind_silentStop fun _ _ => .update rfl

/-! Normals and colors. -/

theorem normalOf_silentStop (h6 : BitVec 6) (e : Entry) (s : State) : (normalOf h6 e).SilentStop s := by
  unfold normalOf
  split
  · exact unpack_bind_silentStop fun _ _ => .pure _
  · refine unpack_bind_silentStop fun fs u => .get_bind (.need_bind fun n => ?_)
    exact .of_confined (correctNormal_confined _ u) fun h => congrArg State.events (correctNormal_error.1 h).1

theorem normalBody_silentStop (h6 : BitVec 6) (s : State) : (normalBody h6).SilentStop s := by
  refine .update_bind ⟨rfl, rfl⟩ (lookup_bind_silentStop fun e => (normalOf_silentStop h6 e _).bind fun n u hu => ⟨?_, ?_⟩)
  · obtain ⟨p, w, c, rfl⟩ := normalOf_ok hu
    rfl
  · split
    · exact .raise _ _
    · exact .update_bind ⟨rfl, rfl⟩ (.pure n)

theorem normalTail_silentStop (mbp : Bool) (n : Normal) (s : State) : (normalTail mbp n).SilentStop s := by
  have hpush : (pushNormal mbp).SilentStop s := .update (by cases mbp <;> rfl)
  refine hpush.bind fun _ u hu => ⟨by cases hu; cases mbp <;> rfl, .get_bind ?_⟩
  split
  · exact .emit _
  · exact .pure _

theorem setNormalCommand_silentStop (h6 : BitVec 6) (mbp : Bool) (s : State) : (setNormalCommand h6 mbp).SilentStop s := by
  rw [setNormalCommand_eq]
  refine (normalBody_silentStop h6 s).bind fun n u hu => ⟨?_, normalTail_silentStop mbp n u⟩
  obtain ⟨p, w, c, rfl⟩ := normalBody_ok hu
  rfl

theorem bundledNormal_silentStop (h6 : BitVec 6) (mbp : Bool) (s : State) : (bundledNormal h6 mbp).SilentStop s :=
  .update_bind ⟨rfl, rfl⟩ (.get_bind ((fetchNext_silentStop _ _).bind fun _ u hu =>
    ⟨(fetchNext_sameSink hu).events, setNormalCommand_silentStop h6 mbp u⟩))

theorem colorOut_silentStop (s : State) : colorOut.SilentStop s :=
  .of_confined (colorOut_confined s) fun h => congrArg State.events (colorOut_error h).2

theorem accumulateColor_silentStop (e : Entry) (fs : List Nat) (s : State) : (accumulateColor e fs).SilentStop s := by
  refine .get_bind ?_
  dsimp only
  split
  · refine .update_bind ⟨rfl, rfl⟩ ?_
    split
    · exact .update rfl
    · exact .pure _
  · refine .need_bind fun c => .update_bind ⟨rfl, rfl⟩ ?_
    split
    · exact .need_bind fun a => .update rfl
    · exact .pure _

/-- The color is sent last, once its output is known (43_color.md rule R177). -/
theorem colorTail_silentStop (mbp : Bool) (s : State) : (colorTail mbp).SilentStop s := by
  have hpush : (pushColor mbp).SilentStop s := .update (by cases mbp <;> rfl)
  refine hpush.bind fun _ u hu => ⟨by cases hu; cases mbp <;> rfl, .get_bind ?_⟩
  split
  · exact (colorOut_silentStop u).bind_unchanged (fun h => (colorOut_ok.1 h).1) fun _ => .emit _
  · exact .pure _

theorem setColorCommand_silentStop (h6 : BitVec 6) (mbp : Bool) (s : State) : (setColorCommand h6 mbp).SilentStop s :=
  .update_bind ⟨rfl, rfl⟩ (lookup_bind_silentStop fun e => .get_bind (unpack_bind_silentStop fun fs u =>
    (accumulateColor_silentStop e fs u).bind fun _ v hv =>
      ⟨(accumulateColor_sameSink hv).events, colorTail_silentStop mbp v⟩))

theorem bundledColor_silentStop (h6 : BitVec 6) (mbp : Bool) (s : State) : (bundledColor h6 mbp).SilentStop s :=
  .update_bind ⟨rfl, rfl⟩ ((fetchNext_silentStop _ _).bind fun _ u hu =>
    ⟨(fetchNext_sameSink hu).events, setColorCommand_silentStop h6 mbp u⟩)

/-! Vertices. -/

theorem accumulatePosition_silentStop (e : Entry) (fs : List Nat) (s : State) :
    (accumulatePosition e fs).SilentStop s := by
  unfold accumulatePosition
  dsimp only
  split
  · exact .update rfl
  · exact .get_bind (.need_bind fun p => .update rfl)

theorem vertexPosition_silentStop (h6 : BitVec 6) (s : State) : (vertexPosition h6).SilentStop s := by
  refine .update_bind ⟨rfl, rfl⟩ (lookup_bind_silentStop fun e => ?_)
  split
  · exact .raise _ _
  refine .bind (getBits_bind_silentStop fun _ _ => .pure _) fun rm u hu => ⟨?_, ?_⟩
  · obtain ⟨b, hb, -⟩ := replaceAndPush_ok hu
    exact (getBits_sameSink hb).events
  refine .update_bind ⟨rfl, rfl⟩ (unpack_bind_silentStop fun fs v => ?_)
  refine (accumulatePosition_silentStop e fs v).bind fun _ w hw => ⟨?_, ?_⟩
  · obtain ⟨q, rfl, -⟩ := accumulatePosition_ok hw
    rfl
  · split
    · exact .update_bind ⟨rfl, rfl⟩ (.pure _)
    · exact .pure _

/-- An emission that lacks a part sends nothing (45_dispatch_control.md rule R216). -/
theorem emitVertex_silentStop (s : State) : emitVertex.SilentStop s :=
  .of_confined (emitVertex_confined s) fun h => congrArg State.events (emitVertex_error h).2

/-- With BN = 1 the normal leaves its event to the emission, so a color that stops behind it has nothing sent before it. -/
theorem bundledParts_silentStop {bn bc : Bool} (mbp : Bool) {s : State} (hbn : s.bn = bn) (hbc : s.bc = bc) :
    (bundledParts bn bc mbp).SilentStop s := by
  cases bn <;> cases bc
  · exact .pure ()
  · exact .get_bind (bundledColor_silentStop _ _ s)
  · exact .get_bind (bundledNormal_silentStop _ _ s)
  · exact .get_bind ((bundledNormal_silentStop _ _ s).bind fun _ u hu =>
      ⟨(bundledNormal_sameSink hbn hu).events, .get_bind (bundledColor_silentStop _ _ u)⟩)

theorem bundledParts_sameSink {bn bc mbp : Bool} {s t : State} {x : Unit} (hbn : s.bn = bn) (hbc : s.bc = bc)
    (h : bundledParts bn bc mbp s = .ok x t) : SameSink s t := by
  cases bn <;> cases bc
  · cases h
    exact ⟨rfl, rfl, rfl, rfl⟩
  · exact bundledColor_sameSink hbc h
  · exact bundledNormal_sameSink hbn h
  · obtain ⟨_, _, hs, h⟩ := Op.bind_ok.1 h
    cases hs
    obtain ⟨_, u, hu, h⟩ := Op.bind_ok.1 h
    have hnormal := bundledNormal_sameSink hbn hu
    exact hnormal.trans (bundledColor_sameSink (hnormal.bc.trans hbc) h)

theorem vertexStep_silentStop (h6 : BitVec 6) (s : State) : (vertexStep h6).SilentStop s := by
  refine .of_confined (vertexStep_confined h6 s) fun h => ?_
  rw [vertexStep_eq] at h
  refine Op.SilentStop.events ?_ h
  refine (fetchNext_silentStop _ s).bind fun _ u hu => ⟨(fetchNext_sameSink hu).events, ?_⟩
  refine (vertexPosition_silentStop h6 u).bind fun mbp v hv => ⟨(vertexPosition_sameSink hv).events, ?_⟩
  obtain ⟨-, hbn, hbc, -⟩ := (fetchNext_sameSink hu).trans (vertexPosition_sameSink hv)
  refine (bundledParts_silentStop mbp hbn hbc).bind fun _ w hw => ⟨?_, emitVertex_silentStop w⟩
  exact (bundledParts_sameSink hbn hbc hw).events

theorem meshReference_silentStop (k : BitVec 4) (r1 : Bool) (s : State) : (meshReference k r1).SilentStop s := by
  refine .of_confined (meshReference_confined k r1 s) fun {e t} h => ?_
  rcases Op.bind_error.1 h with hg | ⟨r0, u, hg, -⟩
  · exact (getBits_silentStop 1 s).events hg
  · obtain ⟨-, hafter⟩ := meshReference_error h hg
    have hkept : t.events = u.events := (congrArg State.events (hafter.kept default) :)
    exact hkept.trans (getBits_sameSink hg).events

/-! Commands. -/

theorem setTableCommand_silentStop (sel : BitVec 2) (a6 : Bool) (s : State) : (setTableCommand sel a6).SilentStop s := by
  unfold setTableCommand
  split
  · exact .raise _ _
  · exact getBits_bind_silentStop fun _ u => .update (State.setTable_status u _ _)

/-- Every command is a computation that sends nothing where it stops. -/
theorem exec_silentStop (i : Instr) (s : State) : ∃ m : Op Unit, m.SilentStop s ∧ exec i s = runOp m s := by
  cases i with
  | nrm h6 => exact ⟨_, setNormalCommand_silentStop h6 false s, rfl⟩
  | col h6 => exact ⟨_, setColorCommand_silentStop h6 false s, rfl⟩
  | vtx h6 => exact ⟨_, vertexStep_silentStop h6 s, rfl⟩
  | mbr k r1 =>
    exact ⟨_, (meshReference_silentStop k r1 s).bind fun _ u hu =>
      ⟨(meshReference_sameSink hu).events, emitVertex_silentStop u⟩, rfl⟩
  | sst x bn =>
    refine ⟨_, ?_, rfl⟩
    exact getBits_bind_silentStop fun _ _ => .update_bind ⟨rfl, rfl⟩ (.emit _)
  | stb sel a6 => exact ⟨_, setTableCommand_silentStop sel a6 s, rfl⟩
  | eos => exact ⟨_, .pure (), rfl⟩
  | skip8 => exact ⟨_, getBits_bind_silentStop fun _ _ => .pure (), rfl⟩
  | vnop | pass => exact ⟨_, getBits_bind_silentStop fun _ _ => getBits_bind_silentStop fun _ _ => .pure (), rfl⟩
  | nrmSub h6 mbp => exact ⟨_, bundledNormal_silentStop h6 mbp s, rfl⟩
  | colSub h6 mbp => exact ⟨_, bundledColor_silentStop h6 mbp s, rfl⟩
  | reserved02 | reserved03 | reserved04 | reserved05 | reserved06 | reserved09 | reserved0A | reserved0B | reserved0C
  | reserved0D | reserved0E | reserved0F | stbReservedSelect a6 => exact ⟨_, .raise _ _, rfl⟩

/-- A command of a running decode that ends in an error has raised it, and nothing was sent before. -/
theorem exec_failed_events {i : Instr} {s t : State} (hrun : s.status = .run) (h : exec i s = .next t)
    (ht : t.status.isError = true) : t.events = s.events := by
  obtain ⟨m, hm, hexec⟩ := exec_silentStop i s
  rcases runOp_next.1 (hexec ▸ h) with hok | ⟨r, info, u, hraise, rfl⟩
  · rw [hm.status hok, hrun] at ht
    cases ht
  · exact (enterError_events u r info).trans (hm.events hraise)

/-! The step. -/

/-- The fetch before a command sends nothing either, whether it is answered or stops. -/
theorem dispatch_failed_events {s t : State} (hrun : s.status = .run) (h : dispatch s = .next t)
    (ht : t.status.isError = true) : t.events = s.events := by
  by_cases hclass : s.nxt.extractLsb' 6 2 = 1#2
  · rw [dispatch_vertex hclass] at h
    exact exec_failed_events (s := s.setCur s.nxt) hrun h ht
  have hstop := fetchNext_silentStop 8 (s.setCur s.nxt)
  cases hf : fetchNext 8 (s.setCur s.nxt) with
  | error e u =>
    rw [dispatch_fetch_error hclass hf] at h
    cases e with
    | raise r i => cases h; exact (enterError_events u r i).trans (hstop.events hf)
    | noByte a => cases h
  | ok x u =>
    rw [dispatch_fetch_ok hclass hf] at h
    have hsink := (setCur_sameSink s s.nxt).trans (fetchNext_sameSink hf)
    exact (exec_failed_events ((hstop.status hf).trans hrun) h ht).trans hsink.events

/-- Settles O50: a step with no bits left ends the decode normally; any other runs a command, whose failure is silent. -/
theorem failingStepSendsNoEvent : Obligations.FailingStepSendsNoEvent := by
  intro s t hcall hrun h ht
  cases hmore : s.moreBits with
  | false =>
    rw [step_of_exhausted hcall hrun hmore] at h
    cases h
    cases ht
  | true =>
    rw [step_of_running hcall hrun hmore] at h
    exact dispatch_failed_events hrun h ht

end Sys2Proof.Machine
end
